-- ==== Sys2Proof/Word.lean ====
section
/-! DEFINITION. The two width variants, the word they compute on, and the values of the command ports
(00_scope.md R2, R5, R7; 30_encoding.md R70). -/

namespace Sys2Proof

/-- A byte: `din`, `dout`, an S-box entry, a lane of a word. -/
abbrev Byte := BitVec 8

/-- `VARIANT` (R2, R5): `N16` has 16-bit words, `W32` has 32-bit words. -/
inductive Variant where
  | n16
  | w32
deriving DecidableEq, Repr

/-- `W`, the word width in bits (R5). -/
abbrev Variant.width : Variant → Nat
  | .n16 => 16
  | .w32 => 32

/-- `B = W/8`, the bytes per word (R5). -/
abbrev Variant.bytes (v : Variant) : Nat := v.width / 8

/-- A word: a `W`-bit unsigned integer (R7). -/
abbrev Word (v : Variant) := BitVec v.width

/-- A byte position within a word, `0 <= LANE < B`; lane 0 is the most significant byte (R25, R52). -/
abbrev Lane (v : Variant) := Fin v.bytes

/-- The values on the command ports (R70): the opcode lines and the operand lines. The key lines are
written 32 bits wide; `N16` has only lines 15..0 of `key0` and `key1`, and no `key2`
(`Ports.wires` in Decode.lean drops the lines a variant does not have). -/
structure Ports where
  op   : BitVec 3
  key0 : BitVec 32
  key1 : BitVec 32
  key2 : BitVec 32
  din  : Byte
deriving DecidableEq, Repr

end Sys2Proof
end

