-- ==== Sys2Proof/Config.lean ====
section
/-! DEFINITION. What an implementation fixes, and the free values. -/

namespace Sys2Proof

/-- The variant of the instance `State.reset` describes. `VARIANT` is a parameter fixed per instance (R5, R6,
I18); every state carries its own variant, and the model's definitions work for both.
DESIGN CHOICE (notes/assumptions/1.md): the instance at `State.reset` is an `N16`. -/
def Config.variant : Variant := .n16

/-- FREE VALUE (notes/assumptions/3.md): the registers that R34 leaves unspecified after reset, numbered by the
draw. It has no value in Lean; a claim about it holds for every value. -/
opaque Config.unspecified : Nat → BitVec 32

end Sys2Proof
end

