-- ==== Sys2Proof/Syntax.lean ====
section
/-! DEFINITION. The five commands, one constructor per row of spec/opcode_table.json (30_encoding.md R72). -/

namespace Sys2Proof

/-- A command with the operands its rule takes (R72, R73). The reserved opcodes 101, 110, 111 name no command
(R74): the decoder rejects them. -/
inductive Instr where
  /-- `NOP`, R165. -/
  | nop
  /-- `INIT`, R166. `N16`: `key0 = seed0`, `key1 = seed_fsm_r2`, `key2` unused (0).
  `W32`: `key0 = seed0`, `key1 = seed_fsm_r1`, `key2 = seed_fsm_r2`. -/
  | init (key0 key1 key2 : BitVec 32)
  /-- `GEN`, R167. -/
  | gen
  /-- `XORB`, R168. -/
  | xorb (din : Byte)
  /-- `MSG`, R169. -/
  | msg
deriving DecidableEq, Repr

end Sys2Proof
end

