-- ==== Sys2Proof/WellFormed.lean ====
section
/-! DEFINITION. Which commands a host can present to a core of a variant (30_encoding.md R73, 60_exceptions.md R213). -/

namespace Sys2Proof

/-- The key word fits the `W` lines of a key port (R213: "A key word wider than `W` cannot be presented"). -/
def keyFits (v : Variant) (k : BitVec 32) : Bool := decide (k.toNat < 2 ^ v.width)

/-- `key2` exists in `W32` only; in `N16` it is not sampled, and a command carries 0 there (R73, I17). -/
def key2Fits : Variant → BitVec 32 → Bool
  | .n16, k => k == 0
  | .w32, _ => true

/-- The command can be presented on the ports of a core of variant `v`. -/
def WellFormed (v : Variant) : Instr → Bool
  | .nop => true
  | .init k0 k1 k2 => keyFits v k0 && keyFits v k1 && key2Fits v k2
  | .gen => true
  | .xorb _ => true
  | .msg => true

end Sys2Proof
end

