-- ==== Sys2Proof/Decode.lean ====
section
/-! DEFINITION. The decoder, total on every value of the ports, and the encoder (30_encoding.md R72, R73, R74, R77). -/

namespace Sys2Proof

/-- Why the decoder gives no command. -/
inductive Reject where
  /-- The opcode is 101, 110 or 111: reserved and illegal (R74, R77). -/
  | illegalOp (op : BitVec 3)
deriving DecidableEq, Repr

/-- The lines of a key port that the variant has: `key[W-1:0]` (R70, R73). -/
def keyLines (v : Variant) (k : BitVec 32) : BitVec 32 := (k.setWidth v.width).setWidth 32

/-- `key2` as the variant has it: `W32` has the port, in `N16` it is absent or ignored (R70, R73). -/
def key2Lines : Variant → BitVec 32 → BitVec 32
  | .n16, _ => 0
  | .w32, k => k

/-- The port lines that exist in variant `v` (R70). -/
def Ports.wires (v : Variant) (p : Ports) : Ports :=
  { op := p.op, key0 := keyLines v p.key0, key1 := keyLines v p.key1, key2 := key2Lines v p.key2, din := p.din }

/-- `decode(op)` of R77 with the operand assembly of R73. `INIT` samples the key ports, `XORB` samples `din`, and
no other command samples an operand port. -/
def decode (v : Variant) (p : Ports) : Except Reject Instr :=
  match p.op with
  | 0b000#3 => .ok .nop
  | 0b001#3 => .ok (.init (keyLines v p.key0) (keyLines v p.key1) (key2Lines v p.key2))
  | 0b010#3 => .ok .gen
  | 0b011#3 => .ok (.xorb p.din)
  | 0b100#3 => .ok .msg
  | op => .error (.illegalOp op)

/-- The port values that present a command (R72, R73), with 0 on the operand ports the command does not use. -/
def encode : Instr → Ports
  | .nop => { op := 0b000#3, key0 := 0, key1 := 0, key2 := 0, din := 0 }
  | .init k0 k1 k2 => { op := 0b001#3, key0 := k0, key1 := k1, key2 := k2, din := 0 }
  | .gen => { op := 0b010#3, key0 := 0, key1 := 0, key2 := 0, din := 0 }
  | .xorb b => { op := 0b011#3, key0 := 0, key1 := 0, key2 := 0, din := b }
  | .msg => { op := 0b100#3, key0 := 0, key1 := 0, key2 := 0, din := 0 }

/-- The ports of a command whose opcode-table bits are `w`: the table's bits 2..0 are `cmd_op`, and it gives the
operand ports no bits, so they carry 0. -/
def tablePorts (nbits w : Nat) : Ports :=
  { op := BitVec.ofNat 3 (w % 2 ^ nbits), key0 := 0, key1 := 0, key2 := 0, din := 0 }

/-- The command the decoder reads from an opcode-table word, `none` where it refuses. All operand ports carry 0,
so the variant makes no difference. -/
def decodeTableWord (nbits w : Nat) : Option Instr :=
  (decode Config.variant (tablePorts nbits w)).toOption

end Sys2Proof
end

