-- ==== Sys2Proof/Machine/State.lean ====
section
/-! DEFINITION. The machine's state as plain data, its reset, and the reasons a step can stop
(10_state.md R20 to R36, 30_encoding.md R71, 70_reset_and_hazards.md R230, R234). -/

namespace Sys2Proof.Machine

/-- `ECAUSE`, the cause of the first error since reset (R29, R201). The fourth bit pattern, `11`, is never written
(R29, I16), so it has no constructor (notes/assumptions/5.md). -/
inductive ErrCause where
  /-- `00`: no error recorded. -/
  | noError
  /-- `01`, `ILLEGAL_OP`: a reserved opcode was accepted. -/
  | illegalOp
  /-- `10`, `NOT_KEYED`: `GEN` or `XORB` before a key was loaded. -/
  | notKeyed
deriving DecidableEq, Repr

/-- "The complete state of one core instance, and nothing else" (R20), with two bits of the model's own that record
whether `KS` and `DOUT` have been written since reset. No command reads them. -/
structure Regs (v : Variant) where
  /-- `L[0..15]`, the LFSR words (R21, R22). -/
  l      : Vector (Word v) 16
  /-- `R1`, FSM word 1 (R23). -/
  r1     : Word v
  /-- `R2`, FSM word 2 (R23). -/
  r2     : Word v
  /-- `KS`, the most recently generated keystream word (R24). -/
  ks     : Word v
  /-- `LANE`, the byte position of the next byte of the message (R25). -/
  lane   : Lane v
  /-- `DOUT`, the result byte of the last `XORB` (R26). -/
  dout   : Byte
  /-- `KEYED`, 1 once a key has been loaded since reset (R27). -/
  keyed  : Bool
  /-- `ERR`, the sticky error flag (R28). -/
  err    : Bool
  /-- `ECAUSE` (R29). -/
  ecause : ErrCause
  /-- The MODEL's own field: a generation cycle has run since reset, so `KS` has been written (R34, R35, R234;
  notes/assumptions/15.md). -/
  ksWritten : Bool
  /-- The MODEL's own field: an `XORB` has completed since reset, so `DOUT` has been written (R34, R234;
  notes/assumptions/15.md). -/
  doutWritten : Bool
deriving DecidableEq, Repr

/-- Where the command port stands between two clock edges (R71, R230). -/
inductive Phase where
  /-- No command in progress: `cmd_ready` is 1 (while `rst` is 0). -/
  | ready
  /-- A command was accepted with these port values and has not completed: `cmd_ready` is 0. -/
  | busy (cmd : Ports)
  /-- In reset, or after it and not yet ready: `cmd_ready` is 0. -/
  | resetting
deriving DecidableEq, Repr

/-- What happens at one rising edge of `clk`: the host's pins (R70), and whether the core finishes there. -/
structure Edge where
  /-- `rst`. -/
  rst   : Bool
  /-- `cmd_valid`. -/
  valid : Bool
  /-- `cmd_op`, `key0`, `key1`, `key2`, `din`. -/
  ports : Ports
  /-- The core's own open timing, not a pin: at this edge the command in progress (or the one accepted here)
  completes, or the core becomes ready after reset. `CMD_LATENCY` and the reset delay are open (R71, R230, R238),
  so nothing constrains it (notes/assumptions/6.md). -/
  done  : Bool
deriving DecidableEq, Repr

/-- The whole machine: one core instance and what its environment does to it. -/
structure State where
  /-- `VARIANT`: configuration, never written (R2, R5). -/
  variant : Variant
  /-- The core's architectural state (R20). -/
  regs    : Regs variant
  /-- Idle, busy with an accepted command, or in reset (R71, R230). -/
  phase   : Phase
  /-- The offer that stood at the last edge and was not accepted: the host must hold it stable (R71, R234). -/
  waiting : Option Ports
  /-- The MODEL's own field: what happens at the coming edges, oldest first (notes/assumptions/6.md). -/
  edges   : List Edge
  /-- The MODEL's own field: how many free values have been drawn (notes/assumptions/3.md). -/
  draws   : Nat
deriving DecidableEq, Repr

/-- A reason the machine stops with a fault. There is none: every command, legal or not, leaves a next state
(R200: the cipher functions "are total and raise nothing"; R202: an erroneous command "completes normally").
The spec's two errors are recorded in `ERR` and `ECAUSE`, not here (notes/assumptions/4.md). -/
inductive Fault : Type
deriving DecidableEq, Repr

/-- A reason the model gives no step. -/
inductive Refusal where
  /-- An instruction with no meaning in the model, raised by `exec` only. No arm raises it: every command has its
  meaning. Safe. -/
  | notModelled (mnemonic : String)
  /-- The host changed or withdrew an offer before it was accepted, raised by `step`. R234: "the core's behaviour is
  not specified when the host does otherwise, and a model gives such a host no step". Unsafe only for a claim about
  such a host (I13), of which the model has no run (notes/assumptions/8.md). -/
  | hostDuty
deriving DecidableEq, Repr

/-- The registers after reset: the flags as R34 gives them, and the words it leaves unspecified as given. -/
def Regs.afterReset {v : Variant} (l : Vector (Word v) 16) (r1 r2 ks : Word v) (dout : Byte) : Regs v where
  l      := l
  r1     := r1
  r2     := r2
  ks     := ks
  lane   := ⟨0, by cases v <;> decide⟩
  dout   := dout
  keyed  := false
  err    := false
  ecause := .noError
  ksWritten   := false
  doutWritten := false

/-- A core of variant `v` right after reset (R34). It stands where the core has become ready for a command, which R230
puts within a bounded number of cycles: DESIGN CHOICE (notes/assumptions/17.md). `L`, `R1`, `R2`, `KS` and `DOUT` are
unspecified there; DESIGN CHOICE (unsafe, notes/assumptions/2.md): this state holds 0 in them. -/
def State.resetOf (v : Variant) : State where
  variant := v
  regs    := .afterReset (Vector.replicate 16 0) 0 0 0 0
  phase   := .ready
  waiting := none
  edges   := []
  draws   := 0

/-- The machine right after reset (R34). -/
def State.reset : State := State.resetOf Config.variant

end Sys2Proof.Machine
end

