-- ==== Sys2Proof/Machine/Flags.lean ====
section
/-! DEFINITION. The flags and the output ports computed from the state (10_state.md R27 to R30, 00_scope.md R13,
60_exceptions.md R201, R204). -/

namespace Sys2Proof.Machine

/-- The two bits of `ECAUSE` (R29). -/
def ErrCause.bits : ErrCause → BitVec 2
  | .noError => 0b00#2
  | .illegalOp => 0b01#2
  | .notKeyed => 0b10#2

/-- The output port `status[7:0]` (R30): bits 7:6 hardwired 0, 5:4 `ECAUSE`, 3:2 `LANE`, 1 `ERR`, 0 `KEYED`. -/
def Regs.status {v : Variant} (r : Regs v) : BitVec 8 :=
  0#2 ++ r.ecause.bits ++ BitVec.ofNat 2 r.lane.val ++ BitVec.ofBool r.err ++ BitVec.ofBool r.keyed

/-- What the host sees on the output ports (R13, R70). -/
structure Outputs (v : Variant) where
  ks     : Word v
  dout   : Byte
  status : BitVec 8
  err    : Bool
deriving DecidableEq, Repr

/-- What a host may take from the output ports while no command is in progress: `none` for a port whose register no
command has written since reset, on which it must not rely (R34, R234). -/
structure Sample (v : Variant) where
  ks     : Option (Word v)
  dout   : Option Byte
  status : BitVec 8
  err    : Bool
deriving DecidableEq, Repr

/-- The output ports of the registers; `err` is a level copy of `ERR` (R204). `L`, `R1`, `R2` are on no port (R13). -/
def Regs.outputs {v : Variant} (r : Regs v) : Outputs v :=
  { ks := r.ks, dout := r.dout, status := r.status, err := r.err }

/-- What a host may take from these registers' ports (R234; notes/assumptions/15.md). -/
def Regs.sampled {v : Variant} (r : Regs v) : Sample v :=
  { ks     := if r.ksWritten then some r.outputs.ks else none
    dout   := if r.doutWritten then some r.outputs.dout else none
    status := r.outputs.status
    err    := r.outputs.err }

end Sys2Proof.Machine
end

