-- ==== Sys2Proof/Machine/Fsm.lean ====
section
/-! DEFINITION. The FSM advance (42_fsm.md R140 to R144). -/

namespace Sys2Proof.Machine

/-- R141: `F = ((top + R1) mod 2^W) XOR R2`. -/
def fsmF {v : Variant} (top r1 r2 : Word v) : Word v := (top + r1) ^^^ r2

/-- R142: the new `R1`; the rotation is a `W`-bit rotation. -/
def fsmR1 {v : Variant} (top r1 r2 : Word v) : Word v := r1 ^^^ (fsmF top r1 r2 + r2).rotateLeft 7

/-- R143: the new `R2`, from the old `R1`. -/
def fsmR2 {v : Variant} (r1 : Word v) : Word v := subWord v r1

/-- `FsmAdvance(top, R1, R2)` (R144): both new words, from the old ones. -/
def fsmAdvance {v : Variant} (top r1 r2 : Word v) : Word v × Word v := (fsmR1 top r1 r2, fsmR2 r1)

end Sys2Proof.Machine
end

