-- ==== Sys2Proof/Machine/KeySchedule.lean ====
section
/-! DEFINITION. The two key schedules (43_engine.md R162, R164). -/

namespace Sys2Proof.Machine

/-- R162, one turn of the `N16` recurrence: computed in integers and truncated to 16 bits, which loses the bit
shifted to position 16. -/
def narrowNext (x : BitVec 16) : BitVec 16 :=
  BitVec.ofNat 16 ((x.toNat >>> 1) + (((x.toNat >>> 15) ^^^ (x.toNat &&& 1)) <<< 16))

/-- R162: `L[i]` of the `N16` key schedule. -/
def narrowL (seed0 : BitVec 16) : Nat → BitVec 16
  | 0 => seed0
  | i + 1 => narrowNext (narrowL seed0 i)

/-- R164: `L[i]` of the `W32` key schedule. -/
def wideL (seed0 : BitVec 32) (i : Nat) : BitVec 32 := seed0 ^^^ BitVec.ofNat 32 (i * 0x01010101)

/-- The LFSR words the key gives (R162, R164). -/
def keyL : (v : Variant) → (key0 : Word v) → Vector (Word v) 16
  | .n16, k0 => Vector.ofFn fun i : Fin 16 => narrowL k0 i.val
  | .w32, k0 => Vector.ofFn fun i : Fin 16 => wideL k0 i.val

/-- `R1` from the key: `0xFFFF - L[15]` in `N16` (R162), `seed_fsm_r1 = key1` in `W32` (R164). -/
def keyR1 : (v : Variant) → (key0 key1 : Word v) → Word v
  | .n16, k0, _ => 0xFFFF#16 - narrowL k0 15
  | .w32, _, k1 => k1

/-- `R2` from the key: `seed_fsm_r2`, which is `key1` in `N16` and `key2` in `W32` (R73). -/
def keyR2 : (v : Variant) → (key1 key2 : Word v) → Word v
  | .n16, k1, _ => k1
  | .w32, _, k2 => k2

end Sys2Proof.Machine
end

