-- ==== Sys2Proof/Machine/Lfsr.lean ====
section
/-! DEFINITION. The LFSR advance (41_lfsr.md R120 to R124). -/

namespace Sys2Proof.Machine

/-- R122, in the form the source states: `rotl_32(x, 9) XOR (x >> 23)`. It must not be replaced by a rotation
(90_conflicts.md C5; notes/assumptions/12.md). -/
def mix32 (x : BitVec 32) : BitVec 32 := x.rotateLeft 9 ^^^ (x >>> 23)

/-- The feedback word, from the words before the advance: R120 in `N16`, R121 in `W32`. -/
def feedback : (v : Variant) → Vector (Word v) 16 → Word v
  | .n16, l => l[0] ^^^ l[3] ^^^ l[9]
  | .w32, l => mix32 (l[0] ^^^ l[2] ^^^ l[11] ^^^ l[15])

/-- `LfsrAdvance` (R123, R124): every word moves down one position and the feedback word enters at the top. -/
def lfsrAdvance {v : Variant} (l : Vector (Word v) 16) : Vector (Word v) 16 :=
  Vector.ofFn fun i : Fin 16 => if h : i.val < 15 then l[i.val + 1] else feedback v l

end Sys2Proof.Machine
end

