-- ==== Sys2Proof/Machine/Operands.lean ====
section
/-! DEFINITION. The operand forms: key words and the lane counter (30_encoding.md R73, 10_state.md R25). -/

namespace Sys2Proof.Machine

/-- A key word as the variant's key port presents it, `key[W-1:0]` (R73). -/
def keyWord (v : Variant) (k : BitVec 32) : Word v := k.setWidth v.width

/-- Lane 0, where every message starts (R25, R55). -/
def firstLane (v : Variant) : Lane v := ⟨0, by cases v <;> decide⟩

/-- `(LANE + 1) mod B` (R25, R168). -/
def nextLane {v : Variant} (j : Lane v) : Lane v :=
  ⟨(j.val + 1) % v.bytes, Nat.mod_lt _ (by cases v <;> decide)⟩

end Sys2Proof.Machine
end

