-- ==== Sys2Proof/Machine/Ops.lean ====
section
/-! DEFINITION. The shared operations on the registers: the error action, the generation cycle, the byte consumer,
the key load (60_exceptions.md R202; 43_engine.md R160 to R168). -/

namespace Sys2Proof.Machine

/-- The state with new registers. -/
def State.setRegs (s : State) (r : Regs s.variant) : State := { s with regs := r }

/-- The error action `raise Error(cause)` (R202). There is no trap entry and no return from one (R205, R206). -/
def Regs.raise {v : Variant} (r : Regs v) (c : ErrCause) : Regs v :=
  { r with ecause := if r.err then r.ecause else c, err := true }

/-- The error action on the machine: the erroneous command completes with no other effect (R202). -/
def State.raiseError (s : State) (c : ErrCause) : State := s.setRegs (s.regs.raise c)

/-- R160: the keystream word of a state, `z = ((L[15] + R1) mod 2^W) XOR R2 XOR L[0]`. -/
def Regs.keystreamWord {v : Variant} (r : Regs v) : Word v := (r.l[15] + r.r1) ^^^ r.r2 ^^^ r.l[0]

/-- `GenCycle` (R161): every right-hand side reads the state before the cycle (R235). -/
def Regs.genCycle {v : Variant} (r : Regs v) : Regs v :=
  { r with
    l  := lfsrAdvance r.l
    r1 := (fsmAdvance r.l[15] r.r1 r.r2).1
    r2 := (fsmAdvance r.l[15] r.r1 r.r2).2
    ks := r.keystreamWord
    ksWritten := true }

/-- `n` generation cycles. -/
def Regs.genCycles {v : Variant} : Nat → Regs v → Regs v
  | 0, r => r
  | n + 1, r => Regs.genCycles n r.genCycle

/-- The key load of `INIT` (R166): the variant's key schedule, `LANE <- 0`, `KEYED <- 1`. -/
def Regs.loadKey {v : Variant} (r : Regs v) (key0 key1 key2 : Word v) : Regs v :=
  { r with
    l     := keyL v key0
    r1    := keyR1 v key0 key1
    r2    := keyR2 v key1 key2
    lane  := firstLane v
    keyed := true }

/-- The registers after the word of a byte at `LANE` is available in `KS` (R168): at lane 0 a generation cycle
runs, elsewhere `KS` is the word already. -/
def Regs.fetchWord {v : Variant} (r : Regs v) : Regs v := if r.lane = firstLane v then r.genCycle else r

/-- The byte consumer (R168): `DOUT <- din XOR lane(k, LANE)`, `LANE <- (LANE + 1) mod B`. -/
def Regs.xorByte {v : Variant} (r : Regs v) (din : Byte) : Regs v :=
  { r.fetchWord with
    dout := din ^^^ laneByte r.fetchWord.ks r.lane
    lane := nextLane r.lane
    doutWritten := true }

/-- `LANE <- 0` (R169). -/
def Regs.startMessage {v : Variant} (r : Regs v) : Regs v := { r with lane := firstLane v }

end Sys2Proof.Machine
end

