-- ==== Sys2Proof/Machine/Commands.lean ====
section
/-! DEFINITION. The meanings of the five commands (43_engine.md section 3, R165 to R169). -/

namespace Sys2Proof.Machine

/-- `NOP` (R165): nothing, legal in every state. -/
def execNop (s : State) : Host.Outcome State Fault Refusal := .next s

/-- `INIT` (R166): legal in every state. In `N16` the key is `(key0, key1)` and `key2` has no effect. -/
def execInit (key0 key1 key2 : BitVec 32) (s : State) : Host.Outcome State Fault Refusal :=
  .next (s.setRegs (s.regs.loadKey (keyWord s.variant key0) (keyWord s.variant key1) (keyWord s.variant key2)))

/-- `GEN` (R167): `NOT_KEYED` before a key is loaded, else one generation cycle. -/
def execGen (s : State) : Host.Outcome State Fault Refusal :=
  if s.regs.keyed then .next (s.setRegs s.regs.genCycle) else .next (s.raiseError .notKeyed)

/-- `XORB` (R168): `NOT_KEYED` before a key is loaded, else one byte of the stream. -/
def execXorb (din : Byte) (s : State) : Host.Outcome State Fault Refusal :=
  if s.regs.keyed then .next (s.setRegs (s.regs.xorByte din)) else .next (s.raiseError .notKeyed)

/-- `MSG` (R169): start of a message, legal in every state. -/
def execMsg (s : State) : Host.Outcome State Fault Refusal := .next (s.setRegs s.regs.startMessage)

end Sys2Proof.Machine
end

