-- ==== Sys2Proof/Machine/Dispatch.lean ====
section
/-! DEFINITION. The dispatch: one arm per command of 30_encoding.md R72. -/

namespace Sys2Proof.Machine

/-- What a command does to the state. -/
def exec (i : Instr) (s : State) : Host.Outcome State Fault Refusal :=
  match i with
  | .nop => Sys2Proof.Machine.execNop s
  | .init key0 key1 key2 => Sys2Proof.Machine.execInit key0 key1 key2 s
  | .gen => Sys2Proof.Machine.execGen s
  | .xorb din => Sys2Proof.Machine.execXorb din s
  | .msg => Sys2Proof.Machine.execMsg s

end Sys2Proof.Machine
end

