-- ==== Sys2Proof/Machine/Handshake.lean ====
section
/-! DEFINITION. The command port at one clock edge: acceptance, completion, reset, the host's duties
(30_encoding.md R71, R74, R77; 70_reset_and_hazards.md R230, R234). -/

namespace Sys2Proof.Machine

/-- Runs the command on the ports: a reserved opcode is checked before anything else and takes the error action
with `ILLEGAL_OP` (R74, R77, R203). -/
def runPorts (p : Ports) (s : State) : Host.Outcome State Fault Refusal :=
  match decode s.variant p with
  | .ok i => exec i s
  | .error (.illegalOp _) => .next (s.raiseError .illegalOp)

/-- What happens at the coming edge. When no further edge is listed the host is quiet: `rst` is 0, an offer that
waits is still held, nothing new is offered, and the core finishes what it is at (notes/assumptions/9.md). -/
def State.edgeNow (s : State) : Edge :=
  match s.edges with
  | e :: _ => e
  | [] => { rst := false, valid := s.waiting.isSome, ports := s.waiting.getD (tablePorts 0 0), done := true }

/-- The offer at the coming edge: the values on the port lines the variant has, while `cmd_valid` is 1. -/
def State.offer (s : State) : Option Ports :=
  if s.edgeNow.valid then some (s.edgeNow.ports.wires s.variant) else none

/-- `cmd_ready` (R71, R230): 1 between commands, 0 while a command is in progress and while `rst` is 1. -/
def State.cmdReady (s : State) : Bool := decide (s.phase = .ready) && !s.edgeNow.rst

/-- The host withdraws or changes an offer that has not been accepted (R234). -/
def State.hostBreaksDuty (s : State) : Bool :=
  match s.waiting with
  | some p => decide (s.offer ≠ some p)
  | none => false

/-- The state past the coming edge, with the port's new standing; the registers are as they were. -/
def State.pastEdge (s : State) (phase : Phase) (waiting : Option Ports) : State :=
  { s with phase := phase, waiting := waiting, edges := s.edges.tail }

/-- FREE VALUE: the `i`-th of the words R34 leaves unspecified after a reset edge (notes/assumptions/3.md). -/
def State.freeWord (s : State) (i : Nat) : Word s.variant :=
  (Config.unspecified (s.draws + i)).setWidth s.variant.width

/-- An edge with `rst = 1` (R230): the registers of R34, a command in flight abandoned, no command accepted. `L`
takes free values 0 to 15, `R1`, `R2`, `KS` and `DOUT` the next four. -/
def State.resetEdge (s : State) : State :=
  { variant := s.variant
    regs    := .afterReset (Vector.ofFn fun i : Fin 16 => s.freeWord i.val) (s.freeWord 16) (s.freeWord 17)
      (s.freeWord 18) ((Config.unspecified (s.draws + 19)).setWidth 8)
    phase   := if s.edgeNow.done then .ready else .resetting
    waiting := s.offer
    edges   := s.edges.tail
    draws   := s.draws + 20 }

/-- An edge after reset, not yet ready (R230): the core becomes ready, or not yet. -/
def State.recoverEdge (s : State) : State :=
  s.pastEdge (if s.edgeNow.done then .ready else .resetting) s.offer

/-- An edge while a command is in progress (R71): it completes, with all its writes at once, or not yet. Nothing is
accepted: `cmd_ready` is 0. -/
def State.busyEdge (s : State) (cmd : Ports) : Host.Outcome State Fault Refusal :=
  if s.edgeNow.done then runPorts cmd (s.pastEdge .ready s.offer)
  else .next (s.pastEdge (.busy cmd) s.offer)

/-- An edge with `cmd_ready = 1` (R71): an offer is accepted, and completes here (`CMD_LATENCY = 1`) or later; with
no offer the core holds its state (R212). -/
def State.readyEdge (s : State) : Host.Outcome State Fault Refusal :=
  match s.offer with
  | none => .next (s.pastEdge .ready none)
  | some p =>
    if s.edgeNow.done then runPorts p (s.pastEdge .ready none) else .next (s.pastEdge (.busy p) none)

/-- What the host gets when it samples the output ports: nothing while a command is in progress or in reset, when it
must not sample, and nothing from `ks` or `dout` before a command has written it (R234, D25, I7, I8, I13: "the model
gives such a host no step"; notes/assumptions/15.md). Sampling changes nothing (R57). -/
def State.sample (s : State) : Option (Sample s.variant) := if s.cmdReady then some s.regs.sampled else none

/-- The edge at which the host offers the command of an opcode-table word and the core completes it. -/
def offerEdge (nbits w : Nat) : Edge :=
  { rst := false, valid := true, ports := tablePorts nbits w, done := true }

end Sys2Proof.Machine
end

