-- ==== Sys2Proof/Machine/Step.lean ====
section
/-! DEFINITION. One step of the machine: one rising edge of `clk` (30_encoding.md R71, 70_reset_and_hazards.md R230, R234). -/

namespace Sys2Proof.Machine

/-- One rising edge: a host that breaks R234 gets no step; else `rst` decides first, then where the port stands. -/
def step (s : State) : Host.Outcome State Fault Refusal :=
  if s.hostBreaksDuty then .refused .hostDuty
  else if s.edgeNow.rst then .next s.resetEdge
  else
    match s.phase with
    | .resetting => .next s.recoverEdge
    | .busy cmd => s.busyEdge cmd
    | .ready => s.readyEdge

/-- `s` with an opcode-table word offered at the coming edge and the port free for it, so that the next step
accepts and completes exactly that command (notes/assumptions/10.md). -/
def State.withFetchWord (s : State) (nbits w : Nat) : State :=
  { s with phase := .ready, waiting := none, edges := offerEdge nbits w :: s.edges }

end Sys2Proof.Machine
end

