-- ==== Sys2Proof/Machine/Program.lean ====
section
/-! DEFINITION. Command programs: the pseudo-commands and the assembler lines of 30_encoding.md R78, R79. Notation
for the host's command list, not hardware state (R31). -/

namespace Sys2Proof.Machine

/-- `ENCRYPT b0, ..., b(n-1)` and `DECRYPT` (R79): `MSG`, then one `XORB` a byte. -/
def encryptCommands (bs : List Byte) : List Instr := .msg :: bs.map .xorb

/-- `GENN n` (R79): `n` copies of `GEN`. -/
def genCommands (n : Nat) : List Instr := List.replicate n .gen

/-- The apostrophe that encloses a character operand. -/
def quoteChar : Char := Char.ofNat 39

/-- A blank within a line. -/
def isBlank (c : Char) : Bool := c == ' ' || c == '\t'

/-- The text without blanks at its two ends. -/
def trimBlanks (cs : List Char) : List Char := ((cs.dropWhile isBlank).reverse.dropWhile isBlank).reverse

/-- The line without its comment: `;` starts one, unless it is a quoted character. -/
def dropComment : List Char → List Char
  | [] => []
  | a :: b :: c :: rest =>
    if a = quoteChar ∧ c = quoteChar then a :: b :: c :: dropComment rest
    else if a = ';' then [] else a :: dropComment (b :: c :: rest)
  | a :: rest => if a = ';' then [] else a :: dropComment rest

/-- The operand texts between commas, a quoted comma being a character; `seen` is the current text, reversed. -/
def splitCommas (seen : List Char) : List Char → List (List Char)
  | [] => [seen.reverse]
  | a :: b :: c :: rest =>
    if a = quoteChar ∧ c = quoteChar then splitCommas (c :: b :: a :: seen) rest
    else if a = ',' then seen.reverse :: splitCommas [] (b :: c :: rest)
    else splitCommas (a :: seen) (b :: c :: rest)
  | a :: rest => if a = ',' then seen.reverse :: splitCommas [] rest else splitCommas (a :: seen) rest

/-- The value of a digit in base 10 or 16. -/
def digitValue (base : Nat) (c : Char) : Option Nat :=
  let n := c.toNat
  let d := if 48 ≤ n ∧ n ≤ 57 then n - 48 else if 65 ≤ n ∧ n ≤ 70 then n - 55 else if 97 ≤ n ∧ n ≤ 102 then n - 87 else base
  if d < base then some d else none

/-- A non-empty run of digits, after the value read so far. -/
def digitsValue (base : Nat) (soFar : Nat) : List Char → Option Nat
  | [] => none
  | [c] => (digitValue base c).map (soFar * base + ·)
  | c :: rest => (digitValue base c).bind fun d => digitsValue base (soFar * base + d) rest

/-- A number: hexadecimal with `0x`, or decimal (R78). -/
def numberOf : List Char → Option Nat
  | '0' :: 'x' :: ds => digitsValue 16 0 ds
  | ds => digitsValue 10 0 ds

/-- A byte operand: a number below 256, or a quoted ASCII character (R78). -/
def byteOf (cs : List Char) : Option Byte :=
  match cs with
  | [a, c, b] =>
    if a = quoteChar ∧ b = quoteChar then (if c.toNat < 128 then some (BitVec.ofNat 8 c.toNat) else none)
    else (numberOf cs).bind fun n => if n < 256 then some (BitVec.ofNat 8 n) else none
  | _ => (numberOf cs).bind fun n => if n < 256 then some (BitVec.ofNat 8 n) else none

/-- A key-word operand: a number below `2^W` (R73, R78). -/
def keyOf (v : Variant) (cs : List Char) : Option (BitVec 32) :=
  (numberOf cs).bind fun n => if n < 2 ^ v.width then some (BitVec.ofNat 32 n) else none

/-- The operands of `INIT` and `KEY`: two key words in `N16`, three in `W32` (R78). -/
def initOf (v : Variant) (ops : List (List Char)) : Option Instr :=
  match v, ops.mapM (keyOf v) with
  | .n16, some [k0, k1] => some (.init k0 k1 0)
  | .w32, some [k0, k1, k2] => some (.init k0 k1 k2)
  | _, _ => none

/-- A word of a line and the operand texts after it. -/
def lineParts (line : List Char) : List Char × List (List Char) :=
  let text := trimBlanks (dropComment line)
  let word := text.takeWhile (fun c => !isBlank c)
  let rest := trimBlanks (text.dropWhile (fun c => !isBlank c))
  (word, if rest.isEmpty then [] else (splitCommas [] rest).map trimBlanks)

/-- The commands of one line that is not `.variant`: a command of R78 or a pseudo-command of R79; none for a blank
or comment line. -/
def lineCommands (v : Variant) (word : List Char) (ops : List (List Char)) : Option (List Instr) :=
  if word = [] then some []
  else if word = ['N', 'O', 'P'] ∧ ops = [] then some [.nop]
  else if word = ['I', 'N', 'I', 'T'] ∨ word = ['K', 'E', 'Y'] then (initOf v ops).map ([·])
  else if word = ['G', 'E', 'N'] ∧ ops = [] then some [.gen]
  else if word = ['X', 'O', 'R', 'B'] then
    match ops.mapM byteOf with
    | some [b] => some [.xorb b]
    | _ => none
  else if word = ['M', 'S', 'G'] ∧ ops = [] then some [.msg]
  else if word = ['E', 'N', 'C', 'R', 'Y', 'P', 'T'] ∨ word = ['D', 'E', 'C', 'R', 'Y', 'P', 'T'] then
    (ops.mapM byteOf).map encryptCommands
  else if word = ['G', 'E', 'N', 'N'] then
    match ops.mapM numberOf with
    | some [n] => some (genCommands n)
    | _ => none
  else none

/-- The variant a `.variant` line names. -/
def variantLine (word : List Char) (ops : List (List Char)) : Option Variant :=
  if word = ['.', 'v', 'a', 'r', 'i', 'a', 'n', 't'] then
    if ops = [['N', '1', '6']] then some .n16 else if ops = [['W', '3', '2']] then some .w32 else none
  else none

/-- The commands of the lines after the `.variant` line, in order; `none` if one line is not of R78 or R79. -/
def assembleLines (v : Variant) (lines : List (List Char)) : Option (List Instr) :=
  (lines.mapM fun line => lineCommands v (lineParts line).1 (lineParts line).2).map List.flatten

/-- A command program as R78 writes it, one line a list of characters: its `.variant` line, then its commands. -/
def assemble : List (List Char) → Option (Variant × List Instr)
  | [] => none
  | line :: rest =>
    (variantLine (lineParts line).1 (lineParts line).2).bind fun v => (assembleLines v rest).map ((v, ·))

end Sys2Proof.Machine
end

