-- ==== Sys2Proof/Safety.lean ====
section
/-! DEFINITION. The terms claims use: states with no error recorded, the invariant, the reset states, runs of
commands with the bytes they put out, and the commands a run of clock edges accepts. -/

namespace Sys2Proof.Machine

/-- No error is recorded. "A model treats a state with `ERR = 1` as a fault: a claim about a command sequence assumes
no error is recorded" (R202). -/
def State.noError (s : State) : Bool := !s.regs.err

/-- The flags R34 gives after reset; nothing is said of `L`, `R1`, `R2`, `KS`, `DOUT`, which it leaves unspecified. -/
def Regs.IsReset {v : Variant} (r : Regs v) : Prop :=
  r.keyed = false ∧ r.err = false ∧ r.ecause = .noError ∧ r.lane.val = 0

/-- Port values use only the lines the variant has (R70). -/
def onWires (v : Variant) (p : Ports) : Prop := p.wires v = p

/-- The machine's invariant. `ECAUSE = 00` if and only if `ERR = 0` (R35). `KEYED = 0` implies that no generation
cycle has run since reset (R35), and that no message is under way (R25, R27, R34, R168, R201). Within a message, and
once `DOUT` has been written, `KS` has been written, so no `XORB` reads a `KS` that reset left unspecified (R34, R168). A
command in progress and a waiting offer use only the lines the variant has (R70; notes/assumptions/8.md, 11.md). -/
def State.Inv (s : State) : Prop :=
  (s.regs.ecause = .noError ↔ s.regs.err = false) ∧
  (s.regs.keyed = false → s.regs.ksWritten = false ∧ s.regs.lane.val = 0) ∧
  (s.regs.lane.val ≠ 0 → s.regs.ksWritten = true) ∧
  (s.regs.doutWritten = true → s.regs.ksWritten = true) ∧
  (∀ p, s.phase = .busy p → onWires s.variant p) ∧
  (∀ p, s.waiting = some p → onWires s.variant p)

/-- Runs commands one after another and collects `DOUT` after each `XORB` (R53); `none` if one gives no next state. -/
def runCommands : List Instr → State → Option (List Byte × State)
  | [], s => some ([], s)
  | i :: rest, s =>
    match exec i s with
    | .next t =>
      (runCommands rest t).map fun out =>
        match i with
        | .xorb _ => (t.regs.dout :: out.1, out.2)
        | .nop | .init _ _ _ | .gen | .msg => out
    | .fault _ => none
    | .refused _ => none

/-- The lane of byte position `k` of a message, `k mod B` (R53). -/
def laneAt (v : Variant) (k : Nat) : Lane v := ⟨k % v.bytes, Nat.mod_lt _ (by cases v <;> decide)⟩

/-- The words a message of `n` bytes takes, `ceil(n / B)` (R55). -/
def wordsFor (v : Variant) (n : Nat) : Nat := (n + v.bytes - 1) / v.bytes

/-- The `j`-th keystream word from the registers: what the `(j+1)`-th generation cycle puts out (R160, R170). -/
def Regs.keystream {v : Variant} (r : Regs v) (j : Nat) : Word v := (r.genCycles j).keystreamWord

/-- Runs the commands of port values one after another, as accepted commands complete (R59, R71). -/
def runAccepted : List Ports → State → Option State
  | [], s => some s
  | p :: rest, s =>
    match runPorts p s with
    | .next t => runAccepted rest t
    | .fault _ => none
    | .refused _ => none

/-- The command accepted at the coming edge, if one is (R71: `rst = 0`, `cmd_valid = 1`, `cmd_ready = 1`). -/
def State.accepts (s : State) : List Ports := if s.cmdReady then s.offer.toList else []

/-- `n` clock edges, up to the first at which the model gives no step. -/
def runEdges : Nat → State → Host.Outcome State Fault Refusal
  | 0, s => .next s
  | n + 1, s =>
    match step s with
    | .next t => runEdges n t
    | .fault f => .fault f
    | .refused x => .refused x

/-- The commands accepted at the first `n` edges, in order. -/
def acceptedIn : Nat → State → List Ports
  | 0, _ => []
  | n + 1, s =>
    s.accepts ++
      match step s with
      | .next t => acceptedIn n t
      | .fault _ => []
      | .refused _ => []

/-- The command in progress, if there is one. -/
def Phase.inProgress : Phase → List Ports
  | .ready => []
  | .busy p => [p]
  | .resetting => []

end Sys2Proof.Machine
end

