-- ==== Sys2Proof/Certificates/Slice0/Obligations.lean ====
section
/-! DEFINITION. The statements for the provers, from the spec's numbered rules. -/

namespace Sys2Proof.SpecText

open Sys2Proof Sys2Proof.Machine

/-- `rotl_n(a, k)` as R8 writes it, on unsigned integers below `2^n`. -/
def rotl (n a k : Nat) : Nat := (a * 2 ^ k) % 2 ^ n ||| a / 2 ^ (n - k)

/-- The code of `ECAUSE` in the table of R29. -/
def causeCode : ErrCause → Nat
  | .noError => 0
  | .illegalOp => 1
  | .notKeyed => 2

/-- The feedback word as R120 (`N16`) and R121, R122 (`W32`) write it, on the LFSR words' values. -/
def feedback (v : Variant) (l : Fin 16 → Nat) : Nat :=
  match v with
  | .n16 => l 0 ^^^ l 3 ^^^ l 9
  | .w32 => rotl 32 (l 0 ^^^ l 2 ^^^ l 11 ^^^ l 15) 9 ^^^ (l 0 ^^^ l 2 ^^^ l 11 ^^^ l 15) / 2 ^ 23

/-- `F` of R141 from `top`, `R1`, `R2`. -/
def fsmF (W top r1 r2 : Nat) : Nat := ((top + r1) % 2 ^ W) ^^^ r2

/-- `R1'` of R142. -/
def fsmR1 (W top r1 r2 : Nat) : Nat := r1 ^^^ rotl W ((fsmF W top r1 r2 + r2) % 2 ^ W) 7

/-- `r'` holds in `L`, `R1`, `R2` and `KS` what the generation cycle of R161 gives from `r`: the keystream word of
R160, the FSM of R141 to R144 on `L[15]`, and the LFSR of R120 to R124, each from the words before the cycle. -/
def IsCycle {v : Variant} (r r' : Regs v) : Prop :=
  r'.ks.toNat = (((r.l[15].toNat + r.r1.toNat) % 2 ^ v.width) ^^^ r.r2.toNat ^^^ r.l[0].toNat) ∧
  r'.r1.toNat = fsmR1 v.width r.l[15].toNat r.r1.toNat r.r2.toNat ∧
  (∀ j : Lane v, laneByte r'.r2 j = sbox (laneByte r.r1 j)) ∧
  (∀ (i : Nat) (_ : i < 15), r'.l[i] = r.l[i + 1]) ∧
  r'.l[15].toNat = feedback v (fun i => r.l[i].toNat)

/-- The error action of R202 on the registers. -/
def errorAction {v : Variant} (r : Regs v) (c : ErrCause) : Regs v :=
  { r with err := true, ecause := if r.err = false then c else r.ecause }

/-- The opcodes R74 reserves. -/
def IsReserved (op : BitVec 3) : Prop := op = 0b101#3 ∨ op = 0b110#3 ∨ op = 0b111#3

/-- The command runs a generation cycle from these registers: `GEN` always, `XORB` at `LANE = 0`, once keyed (R22). -/
def RunsCycle {v : Variant} (i : Instr) (r : Regs v) : Prop :=
  r.keyed = true ∧ (i = .gen ∨ ∃ b, i = .xorb b ∧ r.lane.val = 0)

/-- The command is an `INIT`. -/
def IsInit (i : Instr) : Prop := ∃ k0 k1 k2, i = .init k0 k1 k2

/-- The command is an `XORB`. -/
def IsXorb (i : Instr) : Prop := ∃ b, i = .xorb b

/-- The registers of a state with their variant, so that two states' registers can be compared. -/
def regsOf (s : State) : (v : Variant) × Regs v := ⟨s.variant, s.regs⟩

end Sys2Proof.SpecText

open Sys2Proof Sys2Proof.Machine Sys2Proof.SpecText

/-! ### Encoding -/

/-- Words written out from the opcode map of R72 decode to the commands they stand for. -/
def Obligations.OpcodeWordsDecode : Prop :=
  decode .n16 ⟨0b000#3, 1, 2, 3, 4⟩ = .ok .nop ∧
  decode .n16 ⟨0b001#3, 0x1234, 0xABCD, 0x5555, 0x41⟩ = .ok (.init 0x1234 0xABCD 0) ∧
  decode .w32 ⟨0b001#3, 0x01234567, 0x89ABCDEF, 0xFEDCBA98, 0⟩ = .ok (.init 0x01234567 0x89ABCDEF 0xFEDCBA98) ∧
  decode .w32 ⟨0b010#3, 1, 2, 3, 4⟩ = .ok .gen ∧
  decode .n16 ⟨0b011#3, 1, 2, 3, 0x41⟩ = .ok (.xorb 0x41) ∧
  decode .w32 ⟨0b100#3, 1, 2, 3, 4⟩ = .ok .msg

/-- R77: decoding is total, by the opcode alone, and gives the command of the opcode map or `ILLEGAL`; `ILLEGAL` is
checked before any other condition, so a reserved opcode reports `ILLEGAL_OP` whatever the state. -/
def Obligations.DecodeFollowsOpcodeMap : Prop :=
  ∀ (v : Variant) (p : Ports),
    (p.op = 0b000#3 → decode v p = .ok .nop) ∧
    (p.op = 0b001#3 → ∃ k0 k1 k2, decode v p = .ok (.init k0 k1 k2)) ∧
    (p.op = 0b010#3 → decode v p = .ok .gen) ∧
    (p.op = 0b011#3 → ∃ b, decode v p = .ok (.xorb b)) ∧
    (p.op = 0b100#3 → decode v p = .ok .msg) ∧
    (IsReserved p.op → decode v p = .error (.illegalOp p.op) ∧
      ∀ s : State, s.variant = v → s.regs.err = false →
        ∃ r : Regs s.variant, runPorts p s = .next { s with regs := r } ∧ r.ecause = .illegalOp)

/-- Decoding the encoding of a well-formed command gives it back, for every operand. -/
def Obligations.DecodeOfEncodeIsIdentity : Prop :=
  ∀ (v : Variant) (i : Instr), WellFormed v i = true → decode v (encode i) = .ok i

/-- What the decoder gives is well formed, has the opcode it was read from, and depends only on the lines the
variant has. -/
def Obligations.DecodedIsWellFormed : Prop :=
  ∀ (v : Variant) (p : Ports) (i : Instr), decode v p = .ok i →
    WellFormed v i = true ∧ (encode i).op = p.op ∧ decode v (p.wires v) = .ok i

/-- R73: which operand port each command takes, as presented, and what the key words are in each variant. The last
clause: a command that takes no operand decodes alike whatever the operand ports carry. -/
def Obligations.OperandAssembly : Prop :=
  (∀ (s : State) (p : Ports), p.op = 0b001#3 →
    ∃ r : Regs s.variant, runPorts p s = .next { s with regs := r } ∧
      (s.variant = .n16 → r.l[0].toNat = p.key0.toNat % 2 ^ 16 ∧ r.r2.toNat = p.key1.toNat % 2 ^ 16) ∧
      (s.variant = .w32 →
        r.l[0].toNat = p.key0.toNat ∧ r.r1.toNat = p.key1.toNat ∧ r.r2.toNat = p.key2.toNat)) ∧
  (∀ p : Ports, p.op = 0b001#3 →
    decode .n16 p = .ok (.init (p.key0 &&& 0xFFFF#32) (p.key1 &&& 0xFFFF#32) 0) ∧
    decode .w32 p = .ok (.init p.key0 p.key1 p.key2)) ∧
  (∀ (v : Variant) (p : Ports), p.op = 0b011#3 → decode v p = .ok (.xorb p.din)) ∧
  (∀ (v : Variant) (p q : Ports), p.op = q.op → p.op ≠ 0b001#3 → p.op ≠ 0b011#3 → decode v p = decode v q)

/-- R74: a reserved opcode raises `ILLEGAL_OP`, which changes no state but `ERR` and `ECAUSE`; the state it leaves is
one with an error recorded. -/
def Obligations.ReservedOpcodesRaiseIllegalOp : Prop :=
  ∀ (s : State) (p : Ports), IsReserved p.op →
    runPorts p s = .next { s with regs := errorAction s.regs .illegalOp } ∧
    ∀ t, runPorts p s = .next t → t.noError = false

/-! ### S-box -/

/-- R106: the S-box is a bijection, has no fixed point, and has the listed entries. -/
def Obligations.SboxBijectionWithoutFixedPoint : Prop :=
  Function.Bijective sbox ∧ (∀ b, sbox b ≠ b) ∧
  sbox 0x00 = 0x63 ∧ sbox 0x01 = 0x7C ∧ sbox 0x53 = 0xED ∧ sbox 0xFE = 0xBB ∧ sbox 0xFF = 0x16

/-- R101: every nonzero byte has exactly one inverse in GF(2^8), and `inv(0)` is not defined. -/
def Obligations.FieldInverseUnique : Prop :=
  gfInv 0 = none ∧ ∀ a : Byte, a ≠ 0 → ∃ c, gfInv a = some c ∧ ∀ c', gmul a c' = 1 ↔ c' = c

/-- R104: the ROM of R105 is the affine transform of the field inverse, with entry 0 set to 0x63. -/
def Obligations.SboxIsAffineOfInverse : Prop :=
  sbox 0 = 0x63 ∧ affine 0 = 0x63 ∧ Function.Bijective sbox ∧
  ∀ x : Byte, x ≠ 0 → ∃ c, gmul x c = 1 ∧ sbox x = affine c

/-- R103: the construction loop visits 255 different indexes, ends at `p = 1`, and the table it writes, with entry 0
set to 0x63, is the ROM. The loop itself is informative in the spec (general knowledge, G1). -/
def Obligations.ConstructionLoopBuildsSbox : Prop :=
  (∀ x : Byte, sbox x = ((pqEntries 255 (1, 1)).lookup x).getD 0x63) ∧
  ((pqEntries 255 (1, 1)).map Prod.fst).Nodup ∧
  ((pqEntries 255 (1, 1)).map Prod.fst).getLast? = some 1

/-- R52: lane `j` of a word is its bits `W-1-8j : W-8-8j`; lane 0 is the most significant byte. -/
def Obligations.LanesAreBigEndian : Prop :=
  (∀ (v : Variant) (w : Word v) (j : Lane v),
    (laneByte w j).toNat = w.toNat / 2 ^ (v.width - 8 - 8 * j.val) % 256) ∧
  (∀ w : Word .n16, laneByte w ⟨0, by decide⟩ = w.extractLsb' 8 8 ∧ laneByte w ⟨1, by decide⟩ = w.extractLsb' 0 8) ∧
  (∀ w : Word .w32, laneByte w ⟨0, by decide⟩ = w.extractLsb' 24 8 ∧ laneByte w ⟨1, by decide⟩ = w.extractLsb' 16 8 ∧
    laneByte w ⟨2, by decide⟩ = w.extractLsb' 8 8 ∧ laneByte w ⟨3, by decide⟩ = w.extractLsb' 0 8)

/-- R107: word substitution puts every byte lane through the S-box and keeps the lanes in order. -/
def Obligations.SubstitutionWorksByLane : Prop :=
  ∀ (v : Variant) (w : Word v) (j : Lane v), laneByte (subWord v w) j = sbox (laneByte w j)

/-- R108 (derived from R106): word substitution is a bijection on words, in both variants. -/
def Obligations.SubstitutionIsBijective : Prop :=
  ∀ v : Variant, Function.Bijective (subWord v)

/-! ### LFSR and FSM -/

/-- R122: `Mix32` is the rotation and shift the source states, which is the plain shift `x << 9`; it is linear and
not invertible: every `x` with `x[22:0] = 0` maps to 0. -/
def Obligations.MixIsShiftByNine : Prop :=
  (∀ x : BitVec 32, (mix32 x).toNat = (rotl 32 x.toNat 9 ^^^ x.toNat / 2 ^ 23)) ∧
  (∀ x : BitVec 32, mix32 x = x <<< 9) ∧
  (∀ x y : BitVec 32, mix32 (x ^^^ y) = mix32 x ^^^ mix32 y) ∧
  (∀ x : BitVec 32, x.toNat % 2 ^ 23 = 0 → mix32 x = 0) ∧
  ¬ Function.Injective mix32

/-- R120, R121, R123, R124: the advance moves every word down one position, discards `L[0]`, and enters the
feedback of the words before it at the top. -/
def Obligations.LfsrAdvanceShiftsAndFeedsBack : Prop :=
  ∀ (v : Variant) (l : Vector (Word v) 16),
    (∀ (i : Nat) (_ : i < 15), (lfsrAdvance l)[i] = l[i + 1]) ∧
    (lfsrAdvance l)[15].toNat = SpecText.feedback v (fun i => l[i].toNat)

/-- R125: the all-zero LFSR is a fixed point of the advance in both variants. -/
def Obligations.ZeroLfsrIsFixedPoint : Prop :=
  ∀ (v : Variant) (l : Vector (Word v) 16), (∀ (i : Nat) (_ : i < 16), l[i] = 0) → lfsrAdvance l = l

/-- R125: in `W32`, after 16 or more generation cycles from any keyed state every LFSR word has bits 8..0 zero. -/
def Obligations.WideLowBitsVanish : Prop :=
  ∀ (s : State) (n : Nat), s.variant = .w32 → s.regs.keyed = true → 16 ≤ n →
    ∃ r : Regs s.variant, runCommands (genCommands n) s = some ([], { s with regs := r }) ∧
      ∀ (i : Nat) (_ : i < 16), r.l[i].toNat % 2 ^ 9 = 0

/-- R141 to R144: the FSM advance, every right-hand side on the old words; when `F + R2` is 0 the rotation gives 0 and
`R1` stays. -/
def Obligations.FsmAdvanceFormula : Prop :=
  ∀ (v : Variant) (top r1 r2 : Word v),
    (fsmAdvance top r1 r2).1.toNat = SpecText.fsmR1 v.width top.toNat r1.toNat r2.toNat ∧
    (∀ j : Lane v, laneByte (fsmAdvance top r1 r2).2 j = sbox (laneByte r1 j)) ∧
    ((SpecText.fsmF v.width top.toNat r1.toNat r2.toNat + r2.toNat) % 2 ^ v.width = 0 →
      (fsmAdvance top r1 r2).1 = r1)

/-! ### Commands: result, frame and completion -/

/-- R165: `NOP` leaves every state unchanged. -/
def Obligations.NopLeavesStateUnchanged : Prop := ∀ s : State, exec .nop s = .next s

/-- R166 with R162, R163, R164: `INIT` is legal in every state, loads the variant's key schedule, writes 0 to `LANE`
and 1 to `KEYED`, and leaves `KS`, `DOUT`, `ERR`, `ECAUSE` and everything outside the registers as they were. -/
def Obligations.InitLoadsKey : Prop :=
  ∀ (s : State) (k0 k1 k2 : BitVec 32), ∃ r : Regs s.variant,
    exec (.init k0 k1 k2) s = .next { s with regs := r } ∧
    (s.variant = .n16 →
      r.l[0].toNat = k0.toNat % 2 ^ 16 ∧
      (∀ (i : Nat) (_ : i < 15), r.l[i + 1].toNat =
        ((r.l[i].toNat >>> 1) + (((r.l[i].toNat >>> 15) ^^^ (r.l[i].toNat &&& 1)) <<< 16)) % 2 ^ 16) ∧
      (∀ (i : Nat) (_ : i < 16), r.l[i].toNat = (k0.toNat % 2 ^ 16) / 2 ^ i) ∧
      r.r1.toNat = 0xFFFF - r.l[15].toNat ∧
      r.r2.toNat = k1.toNat % 2 ^ 16) ∧
    (s.variant = .w32 →
      (∀ (i : Nat) (_ : i < 16), r.l[i].toNat = k0.toNat ^^^ (i * 0x01010101 % 2 ^ 32)) ∧
      r.r1.toNat = k1.toNat ∧
      r.r2.toNat = k2.toNat) ∧
    r.lane.val = 0 ∧ r.keyed = true ∧
    r.ks = s.regs.ks ∧ r.dout = s.regs.dout ∧ r.err = s.regs.err ∧ r.ecause = s.regs.ecause ∧
    r.ksWritten = s.regs.ksWritten ∧ r.doutWritten = s.regs.doutWritten

/-- R73, I17: in `N16` `key2` has no effect, and of `key0` and `key1` only the 16 lines the ports have. -/
def Obligations.NarrowIgnoresAbsentKeyLines : Prop :=
  ∀ (s : State) (k0 k1 k2 k0' k1' k2' : BitVec 32), s.variant = .n16 →
    k0.setWidth 16 = k0'.setWidth 16 → k1.setWidth 16 = k1'.setWidth 16 →
    exec (.init k0 k1 k2) s = exec (.init k0' k1' k2') s

/-- R160, R161, R167: `GEN` in a keyed core runs one generation cycle and writes `L`, `R1`, `R2`, `KS` alone; in an
unkeyed core it takes the error action and changes `ERR` and `ECAUSE` alone. -/
def Obligations.GenRunsOneCycle : Prop :=
  ∀ s : State,
    (s.regs.keyed = true → ∃ r : Regs s.variant,
      exec .gen s = .next { s with regs := r } ∧ IsCycle s.regs r ∧
      r.lane = s.regs.lane ∧ r.dout = s.regs.dout ∧ r.keyed = s.regs.keyed ∧ r.err = s.regs.err ∧
      r.ecause = s.regs.ecause ∧ r.ksWritten = true ∧ r.doutWritten = s.regs.doutWritten) ∧
    (s.regs.keyed = false → exec .gen s = .next { s with regs := errorAction s.regs .notKeyed })

/-- R168: `XORB` in a keyed core. At `LANE = 0` it runs a generation cycle and uses the new word, elsewhere it uses
`KS` and changes neither `KS` nor `L`, `R1`, `R2`; it writes `DOUT` and `LANE`, and nothing else. In an unkeyed core
it takes the error action. -/
def Obligations.XorbConsumesOneByte : Prop :=
  ∀ (s : State) (b : Byte),
    (s.regs.keyed = true → ∃ r : Regs s.variant,
      exec (.xorb b) s = .next { s with regs := r } ∧
      (s.regs.lane.val = 0 → IsCycle s.regs r ∧ r.ksWritten = true) ∧
      (s.regs.lane.val ≠ 0 → r.l = s.regs.l ∧ r.r1 = s.regs.r1 ∧ r.r2 = s.regs.r2 ∧ r.ks = s.regs.ks ∧
        r.ksWritten = s.regs.ksWritten) ∧
      r.dout = b ^^^ laneByte r.ks s.regs.lane ∧
      r.lane.val = (s.regs.lane.val + 1) % s.variant.bytes ∧
      r.keyed = s.regs.keyed ∧ r.err = s.regs.err ∧ r.ecause = s.regs.ecause ∧ r.doutWritten = true) ∧
    (s.regs.keyed = false → exec (.xorb b) s = .next { s with regs := errorAction s.regs .notKeyed })

/-- R169: `MSG` writes 0 to `LANE` in every state, keyed or not, and nothing else; a keyed `XORB` after it generates a
new word whatever lane the message before it ended at. -/
def Obligations.MsgStartsMessage : Prop :=
  (∀ s : State, ∃ r : Regs s.variant, exec .msg s = .next { s with regs := r } ∧
    r.lane.val = 0 ∧ r.l = s.regs.l ∧ r.r1 = s.regs.r1 ∧ r.r2 = s.regs.r2 ∧ r.ks = s.regs.ks ∧
    r.dout = s.regs.dout ∧ r.keyed = s.regs.keyed ∧ r.err = s.regs.err ∧ r.ecause = s.regs.ecause ∧
    r.ksWritten = s.regs.ksWritten ∧ r.doutWritten = s.regs.doutWritten) ∧
  (∀ (s : State) (b : Byte), s.regs.keyed = true → ∃ r : Regs s.variant,
    runCommands [.msg, .xorb b] s = some ([r.dout], { s with regs := r }) ∧ IsCycle s.regs r)

/-- R200, R207: every command, in every state, leaves a next state that differs in the core's registers alone. -/
def Obligations.EveryCommandCompletes : Prop :=
  ∀ (i : Instr) (s : State), ∃ r : Regs s.variant, exec i s = .next { s with regs := r }

/-- R22 to R29: who writes each register. `L`, `R1`, `R2`: `INIT` and a generation cycle; `KS`: a generation cycle;
`LANE`: `INIT`, `XORB`, `MSG`; `DOUT`: a keyed `XORB`; `KEYED`: `INIT`, to 1; `ERR` and `ECAUSE`: an unkeyed `GEN` or
`XORB`. -/
def Obligations.WritersOfEachRegister : Prop :=
  ∀ (i : Instr) (s : State) (r : Regs s.variant), exec i s = .next { s with regs := r } →
    (¬ IsInit i → ¬ RunsCycle i s.regs → r.l = s.regs.l ∧ r.r1 = s.regs.r1 ∧ r.r2 = s.regs.r2) ∧
    (¬ RunsCycle i s.regs → r.ks = s.regs.ks ∧ r.ksWritten = s.regs.ksWritten) ∧
    (¬ IsInit i → ¬ IsXorb i → i ≠ .msg → r.lane = s.regs.lane) ∧
    (¬ (IsXorb i ∧ s.regs.keyed = true) →
      r.dout = s.regs.dout ∧ r.doutWritten = s.regs.doutWritten) ∧
    (r.keyed = true ↔ (s.regs.keyed = true ∨ IsInit i)) ∧
    (¬ (s.regs.keyed = false ∧ (i = .gen ∨ IsXorb i)) → r.err = s.regs.err ∧ r.ecause = s.regs.ecause)

/-- R35 (with R201): before a key is loaded no command but `INIT` changes `L`, `R1`, `R2`, `KS` or `DOUT`, and the core
stays unkeyed. -/
def Obligations.UnkeyedCoreNeverGenerates : Prop :=
  ∀ (i : Instr) (s : State), s.regs.keyed = false → ¬ IsInit i → ∃ r : Regs s.variant,
    exec i s = .next { s with regs := r } ∧
    r.l = s.regs.l ∧ r.r1 = s.regs.r1 ∧ r.r2 = s.regs.r2 ∧ r.ks = s.regs.ks ∧ r.dout = s.regs.dout ∧
    r.keyed = false ∧ r.ksWritten = s.regs.ksWritten ∧ r.doutWritten = s.regs.doutWritten

/-- R57: `INIT`, `MSG` and `NOP` are idempotent: issued again, they leave the state they left. -/
def Obligations.InitMsgNopAreIdempotent : Prop :=
  ∀ (i : Instr) (s t : State), (IsInit i ∨ i = .msg ∨ i = .nop) → exec i s = .next t → exec i t = .next t

/-- R233: `INIT` fully replaces `L`, `R1`, `R2`: after it nothing but `KS`, `DOUT`, `ERR` and `ECAUSE` depends on the
registers before it, and the model's own record of which of `KS` and `DOUT` is written. -/
def Obligations.RekeyingForgetsOldKey : Prop :=
  ∀ (s : State) (q : Regs s.variant) (k0 k1 k2 : BitVec 32), ∃ r r' : Regs s.variant,
    exec (.init k0 k1 k2) s = .next { s with regs := r } ∧
    exec (.init k0 k1 k2) { s with regs := q } = .next { s with regs := r' } ∧
    r' = { r with
      ks := q.ks, dout := q.dout, err := q.err, ecause := q.ecause
      ksWritten := q.ksWritten, doutWritten := q.doutWritten }

/-- R167, R168: a `GEN` inside a message replaces `KS`, so the next byte is combined with the same lane of the new
word. -/
def Obligations.GenInsideMessageReplacesWord : Prop :=
  ∀ (s : State) (b : Byte), s.regs.keyed = true → s.regs.lane.val ≠ 0 → ∃ r : Regs s.variant,
    runCommands [.gen, .xorb b] s = some ([b ^^^ laneByte r.ks s.regs.lane], { s with regs := r }) ∧
    IsCycle s.regs r ∧ r.lane.val = (s.regs.lane.val + 1) % s.variant.bytes

/-! ### Errors and status -/

/-- R201: the core raises exactly two errors. From a state with none recorded, an accepted command leaves one recorded
if and only if its opcode is reserved (`ILLEGAL_OP`) or it is a `GEN` or `XORB` in an unkeyed core (`NOT_KEYED`). -/
def Obligations.ExactlyTwoErrors : Prop :=
  ∀ (s : State) (p : Ports), s.regs.err = false → s.regs.ecause = .noError → ∃ r : Regs s.variant,
    runPorts p s = .next { s with regs := r } ∧
    (r.err = true ↔ IsReserved p.op ∨ ((p.op = 0b010#3 ∨ p.op = 0b011#3) ∧ s.regs.keyed = false)) ∧
    (r.ecause = .illegalOp ↔ IsReserved p.op) ∧
    (r.ecause = .notKeyed ↔ (p.op = 0b010#3 ∨ p.op = 0b011#3) ∧ s.regs.keyed = false)

/-- R28, R203, R206: once an error is recorded, no step but a reset edge clears `ERR` or changes the first cause. -/
def Obligations.RecordedErrorStays : Prop :=
  ∀ s t : State, step s = .next t → s.edgeNow.rst = false → s.regs.err = true →
    t.regs.err = true ∧ t.regs.ecause = s.regs.ecause

/-- R202: later commands execute normally while `ERR = 1`: what a command does to every register but `ERR` and `ECAUSE`
does not depend on them. -/
def Obligations.RecordedErrorHasNoInfluence : Prop :=
  ∀ (i : Instr) (s : State) (e : Bool) (c : ErrCause), ∃ (r : Regs s.variant) (e' : Bool) (c' : ErrCause),
    exec i s = .next { s with regs := r } ∧
    exec i { s with regs := { s.regs with err := e, ecause := c } } =
      .next { s with regs := { r with err := e', ecause := c' } }

/-- R30: the layout of `status[7:0]`, and every field 0 after reset. -/
def Obligations.StatusLayout : Prop :=
  (∀ (v : Variant) (r : Regs v),
    r.status.getLsbD 0 = r.keyed ∧
    r.status.getLsbD 1 = r.err ∧
    (r.status.extractLsb' 2 2).toNat = r.lane.val ∧
    (r.status.extractLsb' 4 2).toNat = causeCode r.ecause ∧
    (r.status.extractLsb' 6 2).toNat = 0) ∧
  (∀ (v : Variant) (r : Regs v), r.IsReset → r.status = 0x00#8)

/-- R13, R24, R26, R30, R204, R211: the ports show `KS`, `DOUT`, `status` and `ERR`, and none shows `L`, `R1` or `R2`.
The last two clauses are the model's reading of the host's duties in R234 (notes/assumptions/15.md): a sample gives
nothing exactly while `cmd_ready` is 0, and while it is 1 it gives these ports, with nothing from `ks` or `dout` before a
command has written them since reset. -/
def Obligations.PortsHideCipherState : Prop :=
  (∀ (v : Variant) (r : Regs v),
    r.outputs.ks = r.ks ∧ r.outputs.dout = r.dout ∧ r.outputs.status = r.status ∧ r.outputs.err = r.err) ∧
  (∀ (v : Variant) (r : Regs v) (l : Vector (Word v) 16) (r1 r2 : Word v),
    ({ r with l := l, r1 := r1, r2 := r2 } : Regs v).outputs = r.outputs) ∧
  (∀ s : State, s.sample = none ↔ s.phase ≠ .ready ∨ s.edgeNow.rst = true) ∧
  (∀ s : State, s.cmdReady = true → s.sample = some
    { ks := if s.regs.ksWritten then some s.regs.outputs.ks else none
      dout := if s.regs.doutWritten then some s.regs.outputs.dout else none
      status := s.regs.outputs.status
      err := s.regs.outputs.err })

/-! ### Reset and the invariant -/

/-- R34: the values the spec gives after reset, in both variants, and the model's own record that nothing is written
yet. That the core is ready there is the model's choice (notes/assumptions/17.md): R230 says only that `cmd_ready` becomes
1 within a bounded number of cycles. The values `State.reset` holds in `L`, `R1`, `R2`, `KS`, `DOUT` are the model's
choice too (notes/assumptions/2.md) and are not stated. -/
def Obligations.ResetLeavesFlagsClear : Prop :=
  (∀ v : Variant, (State.resetOf v).variant = v ∧ (State.resetOf v).regs.IsReset ∧
    (State.resetOf v).regs.status = 0x00#8 ∧ (State.resetOf v).cmdReady = true ∧
    (State.resetOf v).regs.ksWritten = false ∧ (State.resetOf v).regs.doutWritten = false) ∧
  State.reset.regs.IsReset

/-- R230: an edge with `rst = 1` in any state: nothing is accepted, `cmd_ready` is 0, a command in progress is
abandoned, the flags are those of R34, and nothing counts as written (notes/assumptions/15.md). (One step is one rising edge: the model's choice, notes/assumptions/6.md.) -/
def Obligations.ResetEdgeAbandonsCommand : Prop :=
  ∀ s : State, s.hostBreaksDuty = false → s.edgeNow.rst = true →
    s.cmdReady = false ∧ s.accepts = [] ∧
    ∃ t : State, step s = .next t ∧ t.variant = s.variant ∧ t.regs.IsReset ∧ t.phase.inProgress = [] ∧
      t.regs.ksWritten = false ∧ t.regs.doutWritten = false

/-- R230: an edge with `rst = 0` while the core is not yet ready after reset: `cmd_ready` is 0, nothing is accepted, every
register is kept, and the core becomes ready exactly when the edge is done; what the host offers meanwhile waits. (Edges
and their `done` bit are the model's choice, notes/assumptions/6.md and 7.md.) -/
def Obligations.RecoveryEdgeKeepsRegisters : Prop :=
  ∀ s : State, s.phase = .resetting → s.hostBreaksDuty = false → s.edgeNow.rst = false →
    s.cmdReady = false ∧ s.accepts = [] ∧
    ∃ ph : Phase, (ph = .ready ↔ s.edgeNow.done = true) ∧ (ph = .resetting ↔ s.edgeNow.done = false) ∧
      step s = .next { s with phase := ph, edges := s.edges.tail, waiting := s.offer }

/-- The invariant holds right after reset, in both variants (the rule behind each clause: `StepKeepsInvariant`). -/
def Obligations.InvariantHoldsAtReset : Prop := (∀ v : Variant, (State.resetOf v).Inv) ∧ State.reset.Inv

/-- Every step keeps the invariant, clause by clause: `ECAUSE = 00` if and only if `ERR = 0` (R35); `KEYED = 0` implies
that no generation cycle has run since reset (R35) and that `LANE` is 0 (R25, R27, R34, R168, R201); at a lane other
than 0, and once `DOUT` is written, `KS` is written (R25, R34, R168); a command in progress and a waiting offer use only
lines the variant has (R70, and the model's reading in notes/assumptions/8.md and 11.md). What is written since reset is
the model's own record (notes/assumptions/15.md), and a step is a clock edge (notes/assumptions/6.md). -/
def Obligations.StepKeepsInvariant : Prop := ∀ s t : State, s.Inv → step s = .next t → t.Inv

/-- R2: the variant never changes at run time. -/
def Obligations.StepKeepsVariant : Prop := ∀ s t : State, step s = .next t → t.variant = s.variant

/-! ### The command port

These statements are about clock edges. That one step is one rising edge, and that each edge carries a bit which says
whether the core finishes there, is the model's choice (notes/assumptions/6.md). That a command may complete at the edge
that accepts it, and that an edge which completes an earlier command accepts none, is the model's reading of R71
(notes/assumptions/7.md). The rules they cite fix the rest. -/

/-- A step runs the decoded command: at an edge with `rst = 0` and `cmd_ready = 1`, an offer that the core completes
at that edge, be it new or one that has waited, is `exec` of the decoded command on the state past the edge. Completion
at the accepting edge is the model's reading (notes/assumptions/7.md). -/
def Obligations.StepRunsDecodedCommand : Prop :=
  ∀ (s : State) (e : Edge) (rest : List Edge) (i : Instr),
    s.phase = .ready → (s.waiting = none ∨ s.waiting = some (e.ports.wires s.variant)) →
    s.edges = e :: rest → e.rst = false → e.valid = true → e.done = true →
    decode s.variant e.ports = .ok i →
    step s = exec i { s with edges := rest, waiting := none }

/-- R71, R74, R202: the same for a reserved opcode: the step takes the error action with `ILLEGAL_OP`. Completion at the
accepting edge is the model's reading (notes/assumptions/7.md). -/
def Obligations.StepTakesIllegalOp : Prop :=
  ∀ (s : State) (e : Edge) (rest : List Edge),
    s.phase = .ready → (s.waiting = none ∨ s.waiting = some (e.ports.wires s.variant)) →
    s.edges = e :: rest → e.rst = false → e.valid = true → e.done = true →
    IsReserved e.ports.op →
    step s = .next { s with edges := rest, waiting := none, regs := errorAction s.regs .illegalOp }

/-- R212, R236: with no command offered the core holds its registers. -/
def Obligations.IdleCoreHoldsState : Prop :=
  ∀ s : State, s.phase = .ready → s.waiting = none → s.edgeNow.rst = false → s.edgeNow.valid = false →
    step s = .next { s with edges := s.edges.tail }

/-- R71: while a command is in progress `cmd_ready` is 0, nothing is accepted, and until it completes no register
changes; what the host offers meanwhile waits. That the edge which completes the command accepts nothing either is the
model's reading (notes/assumptions/7.md). -/
def Obligations.BusyCoreAcceptsNothing : Prop :=
  ∀ (s : State) (p : Ports), s.phase = .busy p → s.hostBreaksDuty = false → s.edgeNow.rst = false →
    s.cmdReady = false ∧ s.accepts = [] ∧
    (s.edgeNow.done = false → step s = .next { s with edges := s.edges.tail, waiting := s.offer }) ∧
    (s.edgeNow.done = true →
      step s = runPorts p { s with phase := .ready, edges := s.edges.tail, waiting := s.offer })

/-- R234, I13: a step is refused exactly when the host withdraws or changes an offer that waits, and never faults. -/
def Obligations.OnlyHostDutyStopsStep : Prop :=
  ∀ s : State,
    (∀ f : Fault, step s ≠ .fault f) ∧
    (∀ x : Refusal, step s = .refused x ↔ x = .hostDuty ∧
      ∃ p, s.waiting = some p ∧ ¬ (s.edgeNow.valid = true ∧ s.edgeNow.ports.wires s.variant = p))

/-- R71, R238: the number of cycles a command takes changes nothing it computes: accepted at one edge, completed any
number of edges later, it leaves the registers it leaves when it completes at once. The command
may be a new offer or one that has waited, and `w` is what the host offers after it, throughout (nothing, or one next
command held stable). Completion at the accepting edge, and no acceptance at the completing edge, are the model's reading
(notes/assumptions/7.md). -/
def Obligations.LatencyChangesNothing : Prop :=
  ∀ (s : State) (e last : Edge) (waits rest : List Edge) (w : Option Ports),
    s.phase = .ready → (s.waiting = none ∨ s.waiting = some (e.ports.wires s.variant)) →
    s.edges = e :: (waits ++ last :: rest) →
    e.rst = false → e.valid = true → e.done = false →
    last.rst = false → last.done = true →
    (∀ x ∈ waits, x.rst = false ∧ x.done = false) →
    (∀ x ∈ waits ++ [last], (if x.valid then some (x.ports.wires s.variant) else none) = w) →
    ∃ r : Regs s.variant,
      runEdges (waits.length + 2) s =
        .next { s with regs := r, edges := rest, waiting := w } ∧
      step { s with edges := { e with done := true } :: rest } =
        .next { s with regs := r, edges := rest, waiting := none }

/-- R59, R71: no command is dropped, reordered or executed twice. From any state (ready, busy or not yet ready after
reset), over any number of edges without reset, whatever the latencies, the registers are those that the command in
progress and the accepted commands leave when run one after another in the order accepted, less the one still in
progress at the end. When a command completes and the next is accepted is the model's reading
(notes/assumptions/7.md). -/
def Obligations.CommandsTakeEffectInOrder : Prop :=
  ∀ (n : Nat) (s t : State), (∀ e ∈ s.edges.take n, e.rst = false) →
    runEdges n s = .next t →
    ∃ (finished : List Ports) (u : State),
      s.phase.inProgress ++ acceptedIn n s = finished ++ t.phase.inProgress ∧ runAccepted finished s = some u ∧ regsOf u = regsOf t

/-! ### Keystream and messages -/

/-- R172: the first keystream word of `N16` is `NOT (seed0 XOR seed_fsm_r2)`, and `R2` after the first cycle is
`0x1616`, or `0x16BB` when the top seed bit is set. -/
def Obligations.FirstNarrowWord : Prop :=
  ∀ (s : State) (k0 k1 k2 : BitVec 32), s.variant = .n16 → ∃ r : Regs s.variant,
    runCommands [.init k0 k1 k2, .gen] s = some ([], { s with regs := r }) ∧
    r.ks.toNat = 0xFFFF - (k0.toNat ^^^ k1.toNat) % 2 ^ 16 ∧
    r.r2.toNat = if k0.getLsbD 15 then 0x16BB else 0x1616

/-- R167: consecutive `GEN`s in a keyed core give consecutive keystream words. -/
def Obligations.GensGiveConsecutiveWords : Prop :=
  ∀ (s : State) (n : Nat), s.regs.keyed = true → ∃ r : Regs s.variant,
    runCommands (genCommands (n + 1)) s = some ([], { s with regs := r }) ∧
    r.ks = s.regs.keystream n ∧ r.lane = s.regs.lane ∧ r.dout = s.regs.dout ∧ r.keyed = true

/-- R55, R170: `ENCRYPT` of a buffer in a keyed core puts out `b_k XOR lane(z_(k div B), k mod B)` for every position,
where `z_0, z_1, ...` are the words of the next generation cycles, takes exactly `ceil(n / B)` of them, leaves
`LANE = n mod B` and no error. -/
def Obligations.EncryptXorsKeystreamLanes : Prop :=
  ∀ (s : State) (bs : List Byte), s.regs.keyed = true → ∃ (out : List Byte) (r : Regs s.variant),
    runCommands (encryptCommands bs) s = some (out, { s with regs := r }) ∧
    out.length = bs.length ∧
    (∀ (k : Nat) (b : Byte), bs[k]? = some b →
      out[k]? = some (b ^^^ laneByte (s.regs.keystream (k / s.variant.bytes)) (laneAt s.variant k))) ∧
    r.lane.val = bs.length % s.variant.bytes ∧
    r.l = (s.regs.genCycles (wordsFor s.variant bs.length)).l ∧
    r.r1 = (s.regs.genCycles (wordsFor s.variant bs.length)).r1 ∧
    r.r2 = (s.regs.genCycles (wordsFor s.variant bs.length)).r2 ∧
    r.ks = (s.regs.genCycles (wordsFor s.variant bs.length)).ks ∧
    r.keyed = s.regs.keyed ∧ r.err = s.regs.err ∧ r.ecause = s.regs.ecause

/-- R171: with the same key, in any two cores of one variant whatever they did before, decrypting what encrypting puts
out gives back the buffer, of any length; and encrypting the same buffer twice gives the same bytes. -/
def Obligations.DecryptRecoversBuffer : Prop :=
  ∀ (s s' : State) (k0 k1 k2 : BitVec 32) (p : List Byte), s.variant = s'.variant →
    ∃ (c : List Byte) (t t' t'' : State),
      runCommands (.init k0 k1 k2 :: encryptCommands p) s = some (c, t) ∧
      runCommands (.init k0 k1 k2 :: encryptCommands c) s' = some (p, t') ∧
      runCommands (.init k0 k1 k2 :: encryptCommands p) s' = some (c, t'')

/-- R78, R79, R213: every command an assembled program holds is one a core of the program's variant can be given. -/
def Obligations.AssembledProgramsAreWellFormed : Prop :=
  ∀ (lines : List (List Char)) (v : Variant) (is : List Instr), assemble lines = some (v, is) →
    ∀ i ∈ is, WellFormed v i = true
end

