-- ==== Sys2Proof/Laws/PerInstr.lean ====
section
/-! SUPPORT. Statements for all commands, one lemma per constructor: the encoding drives only lines the variant has. -/

/-- The encoding of a command that is well formed for a variant uses only the port lines of that variant (R70, R73). -/
def Sys2Proof.Laws.EncodeOnWires.Statement (i : Sys2Proof.Instr) : Prop :=
  ∀ v : Sys2Proof.Variant, Sys2Proof.WellFormed v i = true →
    (Sys2Proof.encode i).wires v = Sys2Proof.encode i

/-- A key word that fits the port keeps its value on the port's lines. -/
theorem Sys2Proof.Laws.keyLines_of_keyFits {v : Sys2Proof.Variant} {k : BitVec 32}
    (h : Sys2Proof.keyFits v k = true) : Sys2Proof.keyLines v k = k := by
  simp only [Sys2Proof.keyFits, decide_eq_true_eq] at h
  apply BitVec.eq_of_toNat_eq
  cases v <;>
    simp only [Sys2Proof.keyLines, BitVec.toNat_setWidth, Sys2Proof.Variant.width] at h ⊢ <;>
    omega

/-- The zero key word is zero on the port's lines. -/
theorem Sys2Proof.Laws.keyLines_zero (v : Sys2Proof.Variant) : Sys2Proof.keyLines v 0 = 0 := by
  cases v <;> rfl

/-- A `key2` word that fits the variant keeps its value. -/
theorem Sys2Proof.Laws.key2Lines_of_key2Fits {v : Sys2Proof.Variant} {k : BitVec 32}
    (h : Sys2Proof.key2Fits v k = true) : Sys2Proof.key2Lines v k = k := by
  cases v
  · have hk : k = 0 := by simpa [Sys2Proof.key2Fits] using h
    rw [hk]; rfl
  · rfl

theorem Sys2Proof.Laws.EncodeOnWires.nop : Sys2Proof.Laws.EncodeOnWires.Statement .nop := by
  intro v _; cases v <;> rfl

theorem Sys2Proof.Laws.EncodeOnWires.init (key0 key1 key2 : BitVec 32) :
    Sys2Proof.Laws.EncodeOnWires.Statement (.init key0 key1 key2) := by
  intro v h
  simp only [Sys2Proof.WellFormed, Bool.and_eq_true] at h
  simp [Sys2Proof.encode, Sys2Proof.Ports.wires, Sys2Proof.Laws.keyLines_of_keyFits h.1.1,
    Sys2Proof.Laws.keyLines_of_keyFits h.1.2, Sys2Proof.Laws.key2Lines_of_key2Fits h.2]

theorem Sys2Proof.Laws.EncodeOnWires.gen : Sys2Proof.Laws.EncodeOnWires.Statement .gen := by
  intro v _; cases v <;> rfl

theorem Sys2Proof.Laws.EncodeOnWires.xorb (din : Sys2Proof.Byte) :
    Sys2Proof.Laws.EncodeOnWires.Statement (.xorb din) := by
  intro v _; cases v <;> rfl

theorem Sys2Proof.Laws.EncodeOnWires.msg : Sys2Proof.Laws.EncodeOnWires.Statement .msg := by
  intro v _; cases v <;> rfl
end

