-- ==== Sys2Proof/Laws/Word.lean ====
section
/-! SUPPORT. Facts about the width-dependent constants of R5. (`simp only [Variant.width]` evaluates a width, and
`simp only [Variant.bytes, Variant.width]` a byte count.) -/

namespace Sys2Proof

theorem bytes_pos (v : Variant) : 0 < v.bytes := by cases v <;> decide

theorem width_eq_bytes (v : Variant) : v.width = 8 * v.bytes := by cases v <;> rfl

theorem width_le (v : Variant) : v.width ≤ 32 := by cases v <;> decide

end Sys2Proof
end

