-- ==== Sys2Proof/Laws/Decode.lean ====
section
/-! SUPPORT. The port lines of a variant: dropping the lines it does not have, once or twice, is the same. -/

namespace Sys2Proof

theorem keyLines_keyLines (v : Variant) (k : BitVec 32) : keyLines v (keyLines v k) = keyLines v k := by
  apply BitVec.eq_of_toNat_eq
  cases v <;> simp only [keyLines, BitVec.toNat_setWidth, Variant.width] <;> omega

theorem key2Lines_key2Lines (v : Variant) (k : BitVec 32) : key2Lines v (key2Lines v k) = key2Lines v k := by
  cases v <;> rfl

theorem keyFits_keyLines (v : Variant) (k : BitVec 32) : keyFits v (keyLines v k) = true := by
  cases v <;>
    simp only [keyFits, keyLines, BitVec.toNat_setWidth, Variant.width, decide_eq_true_eq] <;> omega

theorem key2Fits_key2Lines (v : Variant) (k : BitVec 32) : key2Fits v (key2Lines v k) = true := by
  cases v <;> rfl

theorem wires_wires (v : Variant) (p : Ports) : (p.wires v).wires v = p.wires v := by
  simp [Ports.wires, keyLines_keyLines, key2Lines_key2Lines]

@[simp] theorem wires_op (v : Variant) (p : Ports) : (p.wires v).op = p.op := rfl
@[simp] theorem wires_din (v : Variant) (p : Ports) : (p.wires v).din = p.din := rfl

end Sys2Proof
end

