-- ==== Sys2Proof/Laws/State.lean ====
section
/-! SUPPORT. One lemma per field per update of the state. -/

namespace Sys2Proof.Machine

variable (s : State) (r : Regs s.variant) (ph : Phase) (w : Option Ports)

@[simp] theorem setRegs_variant : (s.setRegs r).variant = s.variant := rfl
@[simp] theorem setRegs_regs : (s.setRegs r).regs = r := rfl
@[simp] theorem setRegs_phase : (s.setRegs r).phase = s.phase := rfl
@[simp] theorem setRegs_waiting : (s.setRegs r).waiting = s.waiting := rfl
@[simp] theorem setRegs_edges : (s.setRegs r).edges = s.edges := rfl
@[simp] theorem setRegs_draws : (s.setRegs r).draws = s.draws := rfl
@[simp] theorem setRegs_setRegs (q : Regs s.variant) : (s.setRegs q).setRegs r = s.setRegs r := rfl

@[simp] theorem pastEdge_variant : (s.pastEdge ph w).variant = s.variant := rfl
@[simp] theorem pastEdge_regs : (s.pastEdge ph w).regs = s.regs := rfl
@[simp] theorem pastEdge_phase : (s.pastEdge ph w).phase = ph := rfl
@[simp] theorem pastEdge_waiting : (s.pastEdge ph w).waiting = w := rfl
@[simp] theorem pastEdge_edges : (s.pastEdge ph w).edges = s.edges.tail := rfl
@[simp] theorem pastEdge_draws : (s.pastEdge ph w).draws = s.draws := rfl

@[simp] theorem resetEdge_variant : s.resetEdge.variant = s.variant := by simp only [State.resetEdge]
@[simp] theorem resetEdge_waiting : s.resetEdge.waiting = s.offer := rfl
@[simp] theorem resetEdge_edges : s.resetEdge.edges = s.edges.tail := rfl
@[simp] theorem resetEdge_draws : s.resetEdge.draws = s.draws + 20 := rfl
@[simp] theorem resetEdge_phase : s.resetEdge.phase = if s.edgeNow.done then .ready else .resetting := rfl
@[simp] theorem resetEdge_keyed : s.resetEdge.regs.keyed = false := rfl
@[simp] theorem resetEdge_err : s.resetEdge.regs.err = false := rfl
@[simp] theorem resetEdge_ecause : s.resetEdge.regs.ecause = .noError := rfl
@[simp] theorem resetEdge_ksWritten : s.resetEdge.regs.ksWritten = false := rfl
@[simp] theorem resetEdge_doutWritten : s.resetEdge.regs.doutWritten = false := rfl
@[simp] theorem resetEdge_lane : s.resetEdge.regs.lane.val = 0 := rfl

@[simp] theorem raiseError_variant (c : ErrCause) : (s.raiseError c).variant = s.variant := rfl
@[simp] theorem raiseError_regs (c : ErrCause) : (s.raiseError c).regs = s.regs.raise c := rfl
@[simp] theorem raiseError_phase (c : ErrCause) : (s.raiseError c).phase = s.phase := rfl
@[simp] theorem raiseError_waiting (c : ErrCause) : (s.raiseError c).waiting = s.waiting := rfl
@[simp] theorem raiseError_edges (c : ErrCause) : (s.raiseError c).edges = s.edges := rfl

end Sys2Proof.Machine
end

