-- ==== Sys2Proof/Laws/Ops.lean ====
section
/-! SUPPORT. What each shared operation on the registers does, field by field. -/

namespace Sys2Proof.Machine

variable {v : Variant} (r : Regs v)

@[simp] theorem firstLane_val : (firstLane v).val = 0 := rfl
@[simp] theorem nextLane_val (j : Lane v) : (nextLane j).val = (j.val + 1) % v.bytes := rfl

theorem lane_eq_first_iff (j : Lane v) : j = firstLane v ↔ j.val = 0 := by
  simp [Fin.ext_iff, firstLane]

/-! The error action (R202) writes `ERR` and `ECAUSE` alone. -/

@[simp] theorem raise_l (c : ErrCause) : (r.raise c).l = r.l := rfl
@[simp] theorem raise_r1 (c : ErrCause) : (r.raise c).r1 = r.r1 := rfl
@[simp] theorem raise_r2 (c : ErrCause) : (r.raise c).r2 = r.r2 := rfl
@[simp] theorem raise_ks (c : ErrCause) : (r.raise c).ks = r.ks := rfl
@[simp] theorem raise_lane (c : ErrCause) : (r.raise c).lane = r.lane := rfl
@[simp] theorem raise_dout (c : ErrCause) : (r.raise c).dout = r.dout := rfl
@[simp] theorem raise_keyed (c : ErrCause) : (r.raise c).keyed = r.keyed := rfl
@[simp] theorem raise_ksWritten (c : ErrCause) : (r.raise c).ksWritten = r.ksWritten := rfl
@[simp] theorem raise_doutWritten (c : ErrCause) : (r.raise c).doutWritten = r.doutWritten := rfl
@[simp] theorem raise_err (c : ErrCause) : (r.raise c).err = true := rfl
@[simp] theorem raise_ecause (c : ErrCause) :
    (r.raise c).ecause = if r.err = true then r.ecause else c := rfl

/-! The generation cycle (R161) writes `L`, `R1`, `R2` and `KS` alone, and records that `KS` is written. -/

@[simp] theorem genCycle_l : r.genCycle.l = lfsrAdvance r.l := rfl
@[simp] theorem genCycle_r1 : r.genCycle.r1 = fsmR1 r.l[15] r.r1 r.r2 := rfl
@[simp] theorem genCycle_r2 : r.genCycle.r2 = subWord v r.r1 := rfl
@[simp] theorem genCycle_ks : r.genCycle.ks = r.keystreamWord := rfl
@[simp] theorem genCycle_ksWritten : r.genCycle.ksWritten = true := rfl
@[simp] theorem genCycle_doutWritten : r.genCycle.doutWritten = r.doutWritten := by simp only [Regs.genCycle]
@[simp] theorem genCycle_lane : r.genCycle.lane = r.lane := by simp only [Regs.genCycle]
@[simp] theorem genCycle_dout : r.genCycle.dout = r.dout := by simp only [Regs.genCycle]
@[simp] theorem genCycle_keyed : r.genCycle.keyed = r.keyed := by simp only [Regs.genCycle]
@[simp] theorem genCycle_err : r.genCycle.err = r.err := by simp only [Regs.genCycle]
@[simp] theorem genCycle_ecause : r.genCycle.ecause = r.ecause := by simp only [Regs.genCycle]

/-! Several generation cycles. -/

theorem genCycle_genCycles (n : Nat) : (r.genCycles n).genCycle = r.genCycles (n + 1) := by
  induction n generalizing r with
  | zero => rfl
  | succ n ih => exact ih r.genCycle

@[simp] theorem genCycles_lane (n : Nat) : (r.genCycles n).lane = r.lane := by
  induction n generalizing r with
  | zero => rfl
  | succ n ih => exact (ih r.genCycle).trans (genCycle_lane r)

@[simp] theorem genCycles_keyed (n : Nat) : (r.genCycles n).keyed = r.keyed := by
  induction n generalizing r with
  | zero => rfl
  | succ n ih => exact (ih r.genCycle).trans (genCycle_keyed r)

@[simp] theorem genCycles_doutWritten (n : Nat) : (r.genCycles n).doutWritten = r.doutWritten := by
  induction n generalizing r with
  | zero => rfl
  | succ n ih => exact (ih r.genCycle).trans (genCycle_doutWritten r)

theorem genCycles_ksWritten (n : Nat) : (r.genCycles (n + 1)).ksWritten = true := by
  rw [← genCycle_genCycles]; rfl

/-! The key load (R166) leaves `KS`, `DOUT`, `ERR` and `ECAUSE`. -/

@[simp] theorem loadKey_ks (k0 k1 k2 : Word v) : (r.loadKey k0 k1 k2).ks = r.ks := rfl
@[simp] theorem loadKey_dout (k0 k1 k2 : Word v) : (r.loadKey k0 k1 k2).dout = r.dout := rfl
@[simp] theorem loadKey_err (k0 k1 k2 : Word v) : (r.loadKey k0 k1 k2).err = r.err := rfl
@[simp] theorem loadKey_ecause (k0 k1 k2 : Word v) : (r.loadKey k0 k1 k2).ecause = r.ecause := rfl
@[simp] theorem loadKey_ksWritten (k0 k1 k2 : Word v) : (r.loadKey k0 k1 k2).ksWritten = r.ksWritten := rfl
@[simp] theorem loadKey_doutWritten (k0 k1 k2 : Word v) :
    (r.loadKey k0 k1 k2).doutWritten = r.doutWritten := rfl
@[simp] theorem loadKey_keyed (k0 k1 k2 : Word v) : (r.loadKey k0 k1 k2).keyed = true := rfl
@[simp] theorem loadKey_lane (k0 k1 k2 : Word v) : (r.loadKey k0 k1 k2).lane = firstLane v := rfl

/-! The word of a byte (R168): a generation cycle at lane 0, nothing elsewhere. -/

theorem fetchWord_first (h : r.lane.val = 0) : r.fetchWord = r.genCycle := by
  simp [Regs.fetchWord, lane_eq_first_iff, h]

theorem fetchWord_later (h : r.lane.val ≠ 0) : r.fetchWord = r := by
  simp [Regs.fetchWord, lane_eq_first_iff, h]

@[simp] theorem fetchWord_lane : r.fetchWord.lane = r.lane := by
  unfold Regs.fetchWord; split <;> simp
@[simp] theorem fetchWord_dout : r.fetchWord.dout = r.dout := by
  unfold Regs.fetchWord; split <;> simp
@[simp] theorem fetchWord_doutWritten : r.fetchWord.doutWritten = r.doutWritten := by
  unfold Regs.fetchWord; split <;> simp
@[simp] theorem fetchWord_keyed : r.fetchWord.keyed = r.keyed := by
  unfold Regs.fetchWord; split <;> simp
@[simp] theorem fetchWord_err : r.fetchWord.err = r.err := by
  unfold Regs.fetchWord; split <;> simp
@[simp] theorem fetchWord_ecause : r.fetchWord.ecause = r.ecause := by
  unfold Regs.fetchWord; split <;> simp

/-! The byte consumer (R168) writes `DOUT` and `LANE`, and what the word of the byte writes. -/

@[simp] theorem xorByte_l (b : Byte) : (r.xorByte b).l = r.fetchWord.l := rfl
@[simp] theorem xorByte_r1 (b : Byte) : (r.xorByte b).r1 = r.fetchWord.r1 := rfl
@[simp] theorem xorByte_r2 (b : Byte) : (r.xorByte b).r2 = r.fetchWord.r2 := rfl
@[simp] theorem xorByte_ks (b : Byte) : (r.xorByte b).ks = r.fetchWord.ks := rfl
@[simp] theorem xorByte_ksWritten (b : Byte) : (r.xorByte b).ksWritten = r.fetchWord.ksWritten := rfl
@[simp] theorem xorByte_doutWritten (b : Byte) : (r.xorByte b).doutWritten = true := rfl
@[simp] theorem xorByte_lane (b : Byte) : (r.xorByte b).lane = nextLane r.lane := rfl
@[simp] theorem xorByte_dout (b : Byte) :
    (r.xorByte b).dout = b ^^^ laneByte r.fetchWord.ks r.lane := rfl
@[simp] theorem xorByte_keyed (b : Byte) : (r.xorByte b).keyed = r.keyed := fetchWord_keyed r
@[simp] theorem xorByte_err (b : Byte) : (r.xorByte b).err = r.err := fetchWord_err r
@[simp] theorem xorByte_ecause (b : Byte) : (r.xorByte b).ecause = r.ecause := fetchWord_ecause r

/-! The start of a message (R169) writes `LANE` alone. -/

@[simp] theorem startMessage_lane : r.startMessage.lane = firstLane v := rfl
@[simp] theorem startMessage_l : r.startMessage.l = r.l := rfl
@[simp] theorem startMessage_r1 : r.startMessage.r1 = r.r1 := rfl
@[simp] theorem startMessage_r2 : r.startMessage.r2 = r.r2 := rfl
@[simp] theorem startMessage_ks : r.startMessage.ks = r.ks := rfl
@[simp] theorem startMessage_dout : r.startMessage.dout = r.dout := rfl
@[simp] theorem startMessage_keyed : r.startMessage.keyed = r.keyed := rfl
@[simp] theorem startMessage_err : r.startMessage.err = r.err := rfl
@[simp] theorem startMessage_ecause : r.startMessage.ecause = r.ecause := rfl
@[simp] theorem startMessage_ksWritten : r.startMessage.ksWritten = r.ksWritten := rfl
@[simp] theorem startMessage_doutWritten : r.startMessage.doutWritten = r.doutWritten := rfl

/-! Words of the LFSR after an advance. -/

theorem lfsrAdvance_get (l : Vector (Word v) 16) (i : Nat) (h : i < 16) :
    (lfsrAdvance l)[i] = if h' : i < 15 then l[i + 1] else feedback v l := by
  simp [lfsrAdvance]

end Sys2Proof.Machine
end

