-- ==== Sys2Proof/Laws/Step.lean ====
section
/-! SUPPORT. What a command, an accepted command and one clock edge can do, said once. -/

namespace Sys2Proof.Machine

/-- A next state of `exec` differs from the state before in the registers alone. -/
theorem exec_changes_registers_only {i : Instr} {s t : State} (h : exec i s = .next t) :
    ∃ r : Regs s.variant, t = s.setRegs r := by
  cases i <;> simp only [exec, execNop, execInit, execGen, execXorb, execMsg] at h
  · cases h; exact ⟨s.regs, rfl⟩
  · cases h; exact ⟨_, rfl⟩
  · split at h <;> cases h <;> exact ⟨_, rfl⟩
  · split at h <;> cases h <;> exact ⟨_, rfl⟩
  · cases h; exact ⟨_, rfl⟩

/-- A next state of an accepted command differs from the state before in the registers alone. -/
theorem runPorts_changes_registers_only {p : Ports} {s t : State} (h : runPorts p s = .next t) :
    ∃ r : Regs s.variant, t = s.setRegs r := by
  unfold runPorts at h
  split at h
  · exact exec_changes_registers_only h
  · cases h; exact ⟨_, rfl⟩

/-- The cases of one step that answers a next state. -/
theorem step_cases {s t : State} (h : step s = .next t) :
    (s.edgeNow.rst = true ∧ t = s.resetEdge) ∨
    (s.edgeNow.rst = false ∧ s.phase = .resetting ∧ t = s.recoverEdge) ∨
    (∃ p, s.edgeNow.rst = false ∧ s.phase = .busy p ∧ s.edgeNow.done = false ∧
      t = s.pastEdge (.busy p) s.offer) ∨
    (∃ p, s.edgeNow.rst = false ∧ s.phase = .busy p ∧ s.edgeNow.done = true ∧
      runPorts p (s.pastEdge .ready s.offer) = .next t) ∨
    (s.edgeNow.rst = false ∧ s.phase = .ready ∧ s.offer = none ∧ t = s.pastEdge .ready none) ∨
    (∃ p, s.edgeNow.rst = false ∧ s.phase = .ready ∧ s.offer = some p ∧ s.edgeNow.done = false ∧
      t = s.pastEdge (.busy p) none) ∨
    (∃ p, s.edgeNow.rst = false ∧ s.phase = .ready ∧ s.offer = some p ∧ s.edgeNow.done = true ∧
      runPorts p (s.pastEdge .ready none) = .next t) := by
  unfold step at h
  split at h
  · cases h
  · split at h
    · rename_i hr; cases h; exact .inl ⟨hr, rfl⟩
    · rename_i hr
      simp only [Bool.not_eq_true] at hr
      split at h
      · rename_i hp; cases h; exact .inr (.inl ⟨hr, hp, rfl⟩)
      · rename_i p hp
        unfold State.busyEdge at h
        split at h
        · rename_i hd; exact .inr (.inr (.inr (.inl ⟨p, hr, hp, hd, h⟩)))
        · rename_i hd; cases h
          exact .inr (.inr (.inl ⟨p, hr, hp, by simpa using hd, rfl⟩))
      · rename_i hp
        unfold State.readyEdge at h
        split at h
        · rename_i ho; cases h
          exact .inr (.inr (.inr (.inr (.inl ⟨hr, hp, ho, rfl⟩))))
        · rename_i p ho
          split at h
          · rename_i hd; exact .inr (.inr (.inr (.inr (.inr (.inr ⟨p, hr, hp, ho, hd, h⟩)))))
          · rename_i hd; cases h
            exact .inr (.inr (.inr (.inr (.inr (.inl ⟨p, hr, hp, ho, by simpa using hd, rfl⟩)))))

end Sys2Proof.Machine
end

