-- ==== Sys2Proof/Tests/Slice0.lean ====
section
/-! SUPPORT. The model's own tests: values of 95_test_vectors.md, words written out from 30_encoding.md, and a witness
for every statement that has hypotheses. -/

namespace Sys2Proof.Tests

open Sys2Proof Sys2Proof.Machine Sys2Proof.SpecText

/-! ### Helpers -/

/-- A keyed core of the variant, at a lane, with a word in `KS` and a byte in `DOUT`. -/
def keyedCore (v : Variant) (k0 k1 k2 : BitVec 32) (lane : Lane v) (ks : Word v) : State :=
  { State.resetOf v with
    regs := { (State.resetOf v).regs.loadKey (keyWord v k0) (keyWord v k1) (keyWord v k2) with
      ks := ks, lane := lane } }

/-- The next state, if there is one. -/
def nextOf (o : Host.Outcome State Fault Refusal) : Option State :=
  match o with
  | .next t => some t
  | .fault _ => none
  | .refused _ => none

/-- A number read from the next state. -/
def readNext (f : State → Nat) (o : Host.Outcome State Fault Refusal) : Option Nat := (nextOf o).map f

/-- The words of the LFSR as numbers. -/
def lWords (s : State) : List Nat := (s.regs.l.toList).map BitVec.toNat

/-- An edge that offers a command. -/
def offering (p : Ports) (done : Bool) : Edge := { rst := false, valid := true, ports := p, done := done }

/-- An edge with no command offered. -/
def quiet (done : Bool) : Edge := { rst := false, valid := false, ports := tablePorts 0 0, done := done }

/-- An edge with `rst = 1`. -/
def resetPulse : Edge := { rst := true, valid := false, ports := tablePorts 0 0, done := false }

/-- A core right after reset, with what comes at the next edges. -/
def withEdges (v : Variant) (es : List Edge) : State := { State.resetOf v with edges := es }

/-- The ports of a `GEN`. -/
def genPorts : Ports := ⟨0b010#3, 0, 0, 0, 0⟩

/-- The ports of an `INIT` with all-zero keys. -/
def initPorts : Ports := ⟨0b001#3, 0, 0, 0, 0⟩

/-! ### Well-formedness: each check refuses an ill-formed term -/

theorem test_wf_key0_too_wide : WellFormed .n16 (.init 0x10000 0 0) = false := by decide
theorem test_wf_key1_too_wide : WellFormed .n16 (.init 0 0x10000 0) = false := by decide
theorem test_wf_key2_absent : WellFormed .n16 (.init 0 0 1) = false := by decide
theorem test_wf_narrow_init : WellFormed .n16 (.init 0xFFFF 0xFFFF 0) = true := by decide
theorem test_wf_wide_init : WellFormed .w32 (.init 0xFFFFFFFF 0x10000 1) = true := by decide

/-! ### Decode: words written out from the opcode map (R72) and the operand ports (R73) -/

theorem test_decode_nop : decode .n16 ⟨0b000#3, 0, 0, 0, 0⟩ = .ok .nop := by decide
theorem test_decode_init_n16 :
    decode .n16 ⟨0b001#3, 0x99991234, 0xABCD, 0x77, 0x41⟩ = .ok (.init 0x1234 0xABCD 0) := by decide
theorem test_decode_init_w32 :
    decode .w32 ⟨0b001#3, 0x01234567, 0x89ABCDEF, 0xFEDCBA98, 0⟩ =
      .ok (.init 0x01234567 0x89ABCDEF 0xFEDCBA98) := by decide
theorem test_decode_gen : decode .w32 ⟨0b010#3, 0, 0, 0, 0⟩ = .ok .gen := by decide
theorem test_decode_xorb : decode .w32 ⟨0b011#3, 0, 0, 0, 0x41⟩ = .ok (.xorb 0x41) := by decide
theorem test_decode_msg : decode .n16 ⟨0b100#3, 0, 0, 0, 0⟩ = .ok .msg := by decide
theorem test_decode_reserved_first : decode .n16 ⟨0b101#3, 0, 0, 0, 0⟩ = .error (.illegalOp 0b101#3) := by decide
theorem test_decode_reserved_last : decode .w32 ⟨0b111#3, 0, 0, 0, 0⟩ = .error (.illegalOp 0b111#3) := by decide
theorem test_table_words :
    [0, 1, 2, 3, 4, 5].map (decodeTableWord 8) =
      [some .nop, some (.init 0 0 0), some .gen, some (.xorb 0), some .msg, none] := by decide

/-! ### S-box, substitution, LFSR, FSM (V1 to V4) -/

theorem test_sbox :
    [0x00, 0x01, 0x10, 0x53, 0x7F, 0x80, 0xFE, 0xFF].map sbox =
      [0x63, 0x7C, 0xCA, 0xED, 0xD2, 0xCD, 0xBB, 0x16] := by decide
theorem test_sbox_formula : gmul 0x53 0xCA = 0x01 ∧ affine 0xCA = 0xED := by decide
theorem test_sub_16 : [0x0000#16, 0xFFFE#16, 0x1234#16, 0xFF00#16].map (subWord .n16) =
    [0x6363#16, 0x16BB#16, 0xC918#16, 0x1663#16] := by decide
theorem test_sub_32 : [0x00112233#32, 0xDEADBEEF#32].map (subWord .w32) = [0x638293C3#32, 0x1D95AEDF#32] := by
  decide
theorem test_mix : [0x1#32, 0x80000000#32, 0x00800000#32, 0xFFFFFFFF#32, 0x12345678#32].map mix32 =
    [0x200#32, 0#32, 0#32, 0xFFFFFE00#32, 0x68ACF000#32] := by decide
theorem test_feedback_n16 :
    Machine.feedback .n16 (Vector.ofFn fun i : Fin 16 => (1#16 <<< i.val)) = 0x0209#16 := by decide +kernel
theorem test_feedback_w32 :
    Machine.feedback .w32 (Vector.ofFn fun i : Fin 16 => (1#32 <<< i.val)) = 0x01100A00#32 := by decide +kernel
theorem test_fsm_n16 : fsmAdvance (v := .n16) 0x1234#16 0x5678#16 0x9ABC#16 = (0x303E#16, 0xB1BC#16) := by
  decide +kernel
theorem test_fsm_w32 :
    fsmAdvance (v := .w32) 0x01234567#32 0x89ABCDEF#32 0xFEDCBA98#32 = (0xF199FED6#32, 0xA762BDDF#32) := by
  decide +kernel
theorem test_lfsr_advance_n16 :
    (lfsrAdvance (v := .n16) #v[0x1234, 0x091A, 0x048D, 0x0246, 0x0123, 0x0091, 0x0048, 0x0024, 0x0012, 0x0009,
      0x0004, 0x0002, 0x0001, 0, 0, 0]).toList.map BitVec.toNat =
      [0x091A, 0x048D, 0x0246, 0x0123, 0x0091, 0x0048, 0x0024, 0x0012, 0x0009,
      0x0004, 0x0002, 0x0001, 0, 0, 0, 0x107B] := by decide +kernel

/-! ### Commands, one step each (V5, V6, V7) -/

/-- V5.5: the `N16` key schedule. -/
theorem test_init_n16 :
    (nextOf (exec (.init 0x1234 0xABCD 0) (State.resetOf .n16))).map
      (fun t => (lWords t, t.regs.r1.toNat, t.regs.r2.toNat, t.regs.status.toNat)) =
    some ([0x1234, 0x091A, 0x048D, 0x0246, 0x0123, 0x0091, 0x0048, 0x0024, 0x0012, 0x0009, 0x0004, 0x0002, 0x0001,
      0, 0, 0], 0xFFFF, 0xABCD, 0x01) := by decide +kernel

/-- V5.2: the `W32` key schedule. -/
theorem test_init_w32 :
    (nextOf (exec (.init 0x01234567 0x89ABCDEF 0xFEDCBA98) (State.resetOf .w32))).map
      (fun t => ((lWords t).take 4, (lWords t).drop 14, t.regs.r1.toNat, t.regs.r2.toNat)) =
    some ([0x01234567, 0x00224466, 0x03214765, 0x02204664], [0x0F2D4B69, 0x0E2C4A68], 0x89ABCDEF, 0xFEDCBA98) := by
  decide +kernel

/-- V5.5: the first `GEN`. -/
theorem test_gen_n16 :
    (nextOf (exec .gen (keyedCore .n16 0x1234 0xABCD 0 ⟨0, by decide⟩ 0))).map
      (fun t => (t.regs.ks.toNat, t.regs.r1.toNat, t.regs.r2.toNat, (lWords t).drop 15)) =
    some (0x4606, 0x0000, 0x1616, [0x107B]) := by decide +kernel

/-- V5.2: the first `GEN`. -/
theorem test_gen_w32 :
    (nextOf (exec .gen (keyedCore .w32 0x01234567 0x89ABCDEF 0xFEDCBA98 ⟨0, by decide⟩ 0))).map
      (fun t => (t.regs.ks.toNat, t.regs.r1.toNat, t.regs.r2.toNat, (lWords t).drop 15)) =
    some (0x6827E7A8, 0x79057E5C, 0xA762BDDF, [0x0C0C0C00]) := by decide +kernel

/-- V7: `GEN` before a key is loaded. -/
theorem test_gen_unkeyed : readNext (·.regs.status.toNat) (exec .gen (State.resetOf .n16)) = some 0x22 := by
  decide +kernel

/-- V6: `XORB 41` at `LANE = 0` generates `4606`. -/
theorem test_xorb_generates :
    (nextOf (exec (.xorb 0x41) (keyedCore .n16 0x1234 0xABCD 0 ⟨0, by decide⟩ 0))).map
      (fun t => (t.regs.dout.toNat, t.regs.ks.toNat, t.regs.lane.val)) = some (0x07, 0x4606, 1) := by decide +kernel

/-- V6: `XORB 42` at `LANE = 1` uses the low lane of `KS` and wraps the lane. -/
theorem test_xorb_uses_ks :
    (nextOf (exec (.xorb 0x42) (keyedCore .n16 0x1234 0xABCD 0 ⟨1, by decide⟩ 0x4606))).map
      (fun t => (t.regs.dout.toNat, t.regs.ks.toNat, t.regs.lane.val, (lWords t).take 1)) =
    some (0x44, 0x4606, 0, [0x1234]) := by decide +kernel

/-- V7: `INIT` after an error leaves `ERR` and `ECAUSE`. -/
theorem test_init_keeps_error :
    readNext (·.regs.status.toNat) (exec (.init 0 0 0) ((State.resetOf .n16).raiseError .notKeyed)) = some 0x23 := by
  decide +kernel

/-- R169: `MSG` clears the lane and keeps `KS`. -/
theorem test_msg :
    (nextOf (exec .msg (keyedCore .w32 0 0 0 ⟨3, by decide⟩ 0x225173E5))).map
      (fun t => (t.regs.lane.val, t.regs.ks.toNat)) = some (0, 0x225173E5) := by decide +kernel

/-- R165. -/
theorem test_nop : nextOf (exec .nop (State.resetOf .w32)) = some (State.resetOf .w32) := by decide +kernel

/-- V7: op `101` at reset, and op `110` after `NOT_KEYED` keeps the first cause. -/
theorem test_reserved_opcode :
    readNext (·.regs.status.toNat) (runPorts ⟨0b101#3, 0, 0, 0, 0⟩ (State.resetOf .n16)) = some 0x12 ∧
    readNext (·.regs.status.toNat)
      (runPorts ⟨0b110#3, 0, 0, 0, 0⟩ ((State.resetOf .n16).raiseError .notKeyed)) = some 0x22 := by decide +kernel

/-! ### The command port, one edge each -/

/-- The table word of `INIT` runs as the first command after reset. -/
theorem test_first_command :
    readNext (·.regs.status.toNat) (step (State.reset.withFetchWord 8 1)) = some 0x01 := by decide +kernel

/-- A command that does not complete at the edge that accepts it leaves `cmd_ready` at 0 (R71). -/
theorem test_accept_busy :
    (nextOf (step (withEdges .n16 [offering initPorts false]))).map (fun t => (t.phase, t.cmdReady, t.regs.keyed)) =
      some (.busy initPorts, false, false) := by decide +kernel

/-- R230: reset abandons it. -/
theorem test_reset_abandons :
    (nextOf (step { withEdges .n16 [resetPulse] with phase := .busy initPorts })).map
      (fun t => (t.phase, t.regs.status.toNat)) = some (.resetting, 0) := by decide +kernel

/-- R234: an offer withdrawn before it was accepted. -/
theorem test_host_duty :
    nextOf (step { withEdges .n16 [quiet true] with waiting := some genPorts }) = none := by decide +kernel

/-- R234, I7, I8: right after reset a sample gives the status and nothing from `ks` or `dout`. -/
theorem test_sample_at_reset :
    ((State.resetOf .n16).sample).map (fun o => (o.ks.isNone, o.dout.isNone, o.status)) =
      some (true, true, 0x00#8) := by decide +kernel

/-- R24, R234: after the first `GEN` a sample gives its word (V5.5), and still nothing from `dout`. -/
theorem test_sample_after_gen :
    (nextOf (exec .gen (keyedCore .n16 0x1234 0xABCD 0 ⟨0, by decide⟩ 0))).bind
      (fun t => t.sample.map (fun o => (o.ks.map BitVec.toNat, o.dout.isNone))) =
    some (some 0x4606, true) := by decide +kernel

/-- P2 as a program text. -/
theorem test_assemble :
    assemble [['.', 'v', 'a', 'r', 'i', 'a', 'n', 't', ' ', 'N', '1', '6'],
      ['I', 'N', 'I', 'T', ' ', '0', 'x', '1', '2', '3', '4', ',', ' ', '0', 'x', 'A', 'B', 'C', 'D', ' ', ';', 'k'],
      ['E', 'N', 'C', 'R', 'Y', 'P', 'T', ' ', quoteChar, 'A', quoteChar, ',', '6', '6']] =
    some (.n16, [.init 0x1234 0xABCD 0, .msg, .xorb 0x41, .xorb 0x42]) := by decide +kernel

/-! ### Witnesses: a concrete case for the hypotheses of each statement, one at each clause's boundary -/

theorem witness_DecodeFollowsOpcodeMap :
    (⟨0b000#3, 0, 0, 0, 0⟩ : Ports).op = 0b000#3 ∧ initPorts.op = 0b001#3 ∧ genPorts.op = 0b010#3 ∧
    (⟨0b011#3, 0, 0, 0, 0⟩ : Ports).op = 0b011#3 ∧ (⟨0b100#3, 0, 0, 0, 0⟩ : Ports).op = 0b100#3 ∧
    IsReserved 0b101#3 ∧ IsReserved 0b111#3 ∧ (State.resetOf .n16).variant = .n16 ∧
    (State.resetOf .n16).regs.err = false :=
  ⟨rfl, rfl, rfl, rfl, rfl, .inl rfl, .inr (.inr rfl), rfl, rfl⟩

theorem witness_DecodeOfEncodeIsIdentity :
    WellFormed .n16 (.init 0xFFFF 0xFFFF 0) = true ∧ WellFormed .w32 (.init 0xFFFFFFFF 0xFFFFFFFF 0xFFFFFFFF) = true ∧
    WellFormed .n16 (.xorb 0xFF) = true := by decide

theorem witness_DecodedIsWellFormed :
    decode .n16 ⟨0b001#3, 0xFFFFFFFF, 0xFFFFFFFF, 0xFFFFFFFF, 0⟩ = .ok (.init 0xFFFF 0xFFFF 0) := by decide

theorem witness_OperandAssembly :
    initPorts.op = 0b001#3 ∧ (State.resetOf .n16).variant = .n16 ∧ (State.resetOf .w32).variant = .w32 ∧
    (⟨0b011#3, 0, 0, 0, 0xFF⟩ : Ports).op = 0b011#3 ∧
    (genPorts.op = (⟨0b010#3, 1, 2, 3, 4⟩ : Ports).op ∧ genPorts.op ≠ 0b001#3 ∧ genPorts.op ≠ 0b011#3) := by decide

theorem witness_ReservedOpcodesRaiseIllegalOp :
    IsReserved 0b101#3 ∧ IsReserved 0b110#3 ∧ IsReserved 0b111#3 ∧
    ∃ t, runPorts ⟨0b101#3, 0, 0, 0, 0⟩ (State.resetOf .n16) = .next t :=
  ⟨.inl rfl, .inr (.inl rfl), .inr (.inr rfl), _, rfl⟩

theorem witness_FieldInverseUnique : (0x01 : Byte) ≠ 0 ∧ (0xFF : Byte) ≠ 0 := by decide

theorem witness_SboxIsAffineOfInverse : (0x01 : Byte) ≠ 0 ∧ (0xFF : Byte) ≠ 0 := by decide

theorem witness_MixIsShiftByNine : (0xFF800000#32).toNat % 2 ^ 23 = 0 := by decide

theorem witness_ZeroLfsrIsFixedPoint (v : Variant) (i : Nat) (h : i < 16) :
    (Vector.replicate 16 (0 : Word v))[i] = 0 := by simp

theorem witness_WideLowBitsVanish :
    (keyedCore .w32 1 2 3 ⟨0, by decide⟩ 0).variant = .w32 ∧
    (keyedCore .w32 1 2 3 ⟨0, by decide⟩ 0).regs.keyed = true ∧ 16 ≤ 16 := ⟨rfl, rfl, le_refl _⟩

theorem witness_FsmAdvanceFormula :
    (SpecText.fsmF 16 0xFFFF 0xFFFF 0xFFFF + 0xFFFF) % 2 ^ 16 = 0 ∧
    (SpecText.fsmF 32 0xFFFFFFFF 1 0 + 0) % 2 ^ 32 = 0 := by decide

theorem witness_InitLoadsKey :
    (State.resetOf .n16).variant = .n16 ∧ (State.resetOf .w32).variant = .w32 := ⟨rfl, rfl⟩

theorem witness_NarrowIgnoresAbsentKeyLines :
    (State.resetOf .n16).variant = .n16 ∧ (0x10001#32).setWidth 16 = (0x00001#32).setWidth 16 ∧
    (0xFFFF0000#32).setWidth 16 = (0#32).setWidth 16 := by decide

theorem witness_GenRunsOneCycle :
    (keyedCore .n16 1 2 0 ⟨1, by decide⟩ 0).regs.keyed = true ∧ (State.resetOf .n16).regs.keyed = false := ⟨rfl, rfl⟩

theorem witness_XorbConsumesOneByte :
    ((keyedCore .n16 1 2 0 ⟨0, by decide⟩ 0).regs.keyed = true ∧
      (keyedCore .n16 1 2 0 ⟨0, by decide⟩ 0).regs.lane.val = 0) ∧
    (keyedCore .n16 1 2 0 ⟨1, by decide⟩ 0).regs.lane.val ≠ 0 ∧
    (keyedCore .w32 1 2 3 ⟨3, by decide⟩ 0).regs.lane.val ≠ 0 ∧
    (State.resetOf .w32).regs.keyed = false := by decide +kernel

theorem witness_MsgStartsMessage : (keyedCore .w32 1 2 3 ⟨3, by decide⟩ 7).regs.keyed = true := rfl

theorem witness_WritersOfEachRegister :
    (∃ r, exec .nop (keyedCore .n16 1 2 0 ⟨1, by decide⟩ 7) =
      .next { keyedCore .n16 1 2 0 ⟨1, by decide⟩ 7 with regs := r }) ∧
    ¬ IsInit .nop ∧ ¬ IsXorb .nop ∧ Instr.nop ≠ .msg ∧
    ¬ RunsCycle .nop (keyedCore .n16 1 2 0 ⟨1, by decide⟩ 7).regs ∧
    ¬ (IsXorb .nop ∧ (keyedCore .n16 1 2 0 ⟨1, by decide⟩ 7).regs.keyed = true) ∧
    ¬ ((keyedCore .n16 1 2 0 ⟨1, by decide⟩ 7).regs.keyed = false ∧ (Instr.nop = .gen ∨ IsXorb .nop)) :=
  ⟨⟨_, rfl⟩, by simp [IsInit], by simp [IsXorb], by simp, by simp [RunsCycle], by simp [IsXorb], by simp [IsXorb]⟩

theorem witness_UnkeyedCoreNeverGenerates :
    (State.resetOf .n16).regs.keyed = false ∧ ¬ IsInit .gen ∧ ¬ IsInit (.xorb 0xFF) :=
  ⟨rfl, by simp [IsInit], by simp [IsInit]⟩

theorem witness_InitMsgNopAreIdempotent :
    IsInit (.init 1 2 3) ∧ (∃ t, exec (.init 1 2 3) (State.resetOf .n16) = .next t) ∧
    (∃ t, exec .msg (State.resetOf .n16) = .next t) ∧ ∃ t, exec .nop (State.resetOf .n16) = .next t :=
  ⟨⟨1, 2, 3, rfl⟩, ⟨_, rfl⟩, ⟨_, rfl⟩, ⟨_, rfl⟩⟩

theorem witness_GenInsideMessageReplacesWord :
    (keyedCore .n16 0 0 0 ⟨1, by decide⟩ 0xFFFF#16).regs.keyed = true ∧
    (keyedCore .n16 0 0 0 ⟨1, by decide⟩ 0xFFFF#16).regs.lane.val ≠ 0 := by decide +kernel

theorem witness_StatusLayout : (State.resetOf .n16).regs.IsReset ∧ (State.resetOf .w32).regs.IsReset :=
  ⟨⟨rfl, rfl, rfl, rfl⟩, rfl, rfl, rfl, rfl⟩

theorem witness_ExactlyTwoErrors :
    (State.resetOf .w32).regs.err = false ∧ (State.resetOf .w32).regs.ecause = .noError := ⟨rfl, rfl⟩

theorem witness_RecordedErrorStays :
    (∃ t, step ((withEdges .n16 [offering genPorts true]).raiseError .illegalOp) = .next t) ∧
    ((withEdges .n16 [offering genPorts true]).raiseError .illegalOp).edgeNow.rst = false ∧
    ((withEdges .n16 [offering genPorts true]).raiseError .illegalOp).regs.err = true :=
  ⟨⟨_, rfl⟩, rfl, rfl⟩

theorem witness_ResetEdgeAbandonsCommand :
    ({ withEdges .n16 [resetPulse] with phase := .busy initPorts } : State).hostBreaksDuty = false ∧
    ({ withEdges .n16 [resetPulse] with phase := .busy initPorts } : State).edgeNow.rst = true := ⟨rfl, rfl⟩

theorem witness_RecoveryEdgeKeepsRegisters :
    (({ withEdges .n16 [offering genPorts true] with phase := .resetting } : State).hostBreaksDuty = false ∧
      ({ withEdges .n16 [offering genPorts true] with phase := .resetting } : State).edgeNow.rst = false ∧
      ({ withEdges .n16 [offering genPorts true] with phase := .resetting } : State).edgeNow.done = true) ∧
    ({ withEdges .n16 [quiet false] with phase := .resetting } : State).hostBreaksDuty = false ∧
    ({ withEdges .n16 [quiet false] with phase := .resetting } : State).edgeNow.rst = false ∧
    ({ withEdges .n16 [quiet false] with phase := .resetting } : State).edgeNow.done = false := by decide +kernel

theorem witness_PortsHideCipherState :
    (State.resetOf .n16).cmdReady = true ∧ (State.resetOf .n16).regs.ksWritten = false ∧
    (keyedCore .n16 0 0 0 ⟨0, by decide⟩ 0).cmdReady = true ∧
    (keyedCore .n16 0 0 0 ⟨0, by decide⟩ 0).regs.genCycle.ksWritten = true := by decide +kernel

theorem witness_StepKeepsInvariant :
    (withEdges .n16 [offering initPorts true]).Inv ∧
    ∃ t, step (withEdges .n16 [offering initPorts true]) = .next t :=
  ⟨⟨by decide, fun _ => ⟨rfl, rfl⟩, by decide +kernel, nofun, nofun, nofun⟩, _, rfl⟩

/-- The state that has waited with a `GEN` on the port. -/
def waitingCore (es : List Edge) : State := { withEdges .n16 es with waiting := some genPorts }

theorem witness_StepKeepsVariant : ∃ t, step (withEdges .w32 [resetPulse]) = .next t := ⟨_, rfl⟩

theorem witness_StepRunsDecodedCommand :
    (withEdges .n16 [offering genPorts true]).phase = .ready ∧
    (withEdges .n16 [offering genPorts true]).waiting = none ∧
    (withEdges .n16 [offering genPorts true]).edges = [offering genPorts true] ∧
    (waitingCore [offering genPorts true]).phase = .ready ∧
    (waitingCore [offering genPorts true]).waiting = some ((offering genPorts true).ports.wires .n16) ∧
    (offering genPorts true).rst = false ∧ (offering genPorts true).valid = true ∧
    (offering genPorts true).done = true ∧ decode .n16 (offering genPorts true).ports = .ok .gen := by decide +kernel

theorem witness_StepTakesIllegalOp :
    (withEdges .n16 [offering ⟨0b111#3, 0, 0, 0, 0⟩ true]).phase = .ready ∧
    (withEdges .n16 [offering ⟨0b111#3, 0, 0, 0, 0⟩ true]).waiting = none ∧
    ({ withEdges .n16 [offering ⟨0b111#3, 0, 0, 0, 0⟩ true] with waiting := some ⟨0b111#3, 0, 0, 0, 0⟩ } :
      State).waiting = some ((⟨0b111#3, 0, 0, 0, 0⟩ : Ports).wires .n16) ∧
    (withEdges .n16 [offering ⟨0b111#3, 0, 0, 0, 0⟩ true]).edges = [offering ⟨0b111#3, 0, 0, 0, 0⟩ true] ∧
    (offering ⟨0b111#3, 0, 0, 0, 0⟩ true).rst = false ∧ (offering ⟨0b111#3, 0, 0, 0, 0⟩ true).valid = true ∧
    (offering ⟨0b111#3, 0, 0, 0, 0⟩ true).done = true ∧ IsReserved (offering ⟨0b111#3, 0, 0, 0, 0⟩ true).ports.op :=
  ⟨rfl, rfl, rfl, rfl, rfl, rfl, rfl, .inr (.inr rfl)⟩

theorem witness_IdleCoreHoldsState :
    (withEdges .n16 [quiet false]).phase = .ready ∧ (withEdges .n16 [quiet false]).waiting = none ∧
    (withEdges .n16 [quiet false]).edgeNow.rst = false ∧ (withEdges .n16 [quiet false]).edgeNow.valid = false := by
  decide +kernel

theorem witness_BusyCoreAcceptsNothing :
    (({ withEdges .n16 [offering genPorts false] with phase := .busy initPorts } : State).hostBreaksDuty = false ∧
      ({ withEdges .n16 [offering genPorts false] with phase := .busy initPorts } : State).edgeNow.rst = false ∧
      ({ withEdges .n16 [offering genPorts false] with phase := .busy initPorts } : State).edgeNow.done = false) ∧
    ({ withEdges .n16 [quiet true] with phase := .busy initPorts } : State).hostBreaksDuty = false ∧
    ({ withEdges .n16 [quiet true] with phase := .busy initPorts } : State).edgeNow.done = true := by decide +kernel

theorem witness_LatencyChangesNothing :
    (withEdges .n16 [offering initPorts false, offering genPorts false, offering genPorts true]).phase = .ready ∧
    (withEdges .n16 [offering initPorts false, offering genPorts false, offering genPorts true]).waiting = none ∧
    (withEdges .n16 [offering initPorts false, offering genPorts false, offering genPorts true]).edges =
      offering initPorts false :: ([offering genPorts false] ++ offering genPorts true :: []) ∧
    (offering initPorts false).valid = true ∧ (offering initPorts false).done = false ∧
    (offering genPorts true).rst = false ∧ (offering genPorts true).done = true ∧
    (∀ x ∈ [offering genPorts false], x.rst = false ∧ x.done = false) ∧
    (∀ x ∈ [offering genPorts false] ++ [offering genPorts true],
      (if x.valid then some (x.ports.wires .n16) else none) = some genPorts) := by decide +kernel

theorem witness_LatencyChangesNothing_waited :
    (waitingCore [offering genPorts false, quiet true]).phase = .ready ∧
    (waitingCore [offering genPorts false, quiet true]).waiting =
      some ((offering genPorts false).ports.wires .n16) ∧
    (waitingCore [offering genPorts false, quiet true]).edges = offering genPorts false :: ([] ++ quiet true :: []) ∧
    (offering genPorts false).rst = false ∧ (offering genPorts false).valid = true ∧
    (offering genPorts false).done = false ∧ (quiet true).rst = false ∧ (quiet true).done = true ∧
    (∀ x ∈ [] ++ [quiet true], (if x.valid then some (x.ports.wires .n16) else none) = (none : Option Ports)) := by
  decide +kernel

theorem witness_CommandsTakeEffectInOrder :
    (∀ e ∈ (withEdges .n16 [offering initPorts true, offering genPorts false]).edges.take 2, e.rst = false) ∧
    (∃ t, runEdges 2 (withEdges .n16 [offering initPorts true, offering genPorts false]) = .next t) ∧
    (∃ t, runEdges 1 { withEdges .n16 [quiet true] with phase := .busy initPorts } = .next t) ∧
    ∃ t, runEdges 1 { withEdges .n16 [quiet false] with phase := .resetting } = .next t :=
  ⟨by decide +kernel, ⟨_, rfl⟩, ⟨_, rfl⟩, _, rfl⟩

theorem witness_FirstNarrowWord : (State.resetOf .n16).variant = .n16 := rfl

theorem witness_GensGiveConsecutiveWords : (keyedCore .w32 1 2 3 ⟨3, by decide⟩ 0).regs.keyed = true := rfl

theorem witness_EncryptXorsKeystreamLanes :
    (keyedCore .w32 1 2 3 ⟨3, by decide⟩ 0).regs.keyed = true ∧ ([0x48, 0x65] : List Byte)[1]? = some 0x65 :=
  ⟨rfl, rfl⟩

theorem witness_DecryptRecoversBuffer :
    (State.resetOf .n16).variant = (keyedCore .n16 1 2 0 ⟨1, by decide⟩ 0).variant := rfl

theorem witness_AssembledProgramsAreWellFormed :
    assemble [['.', 'v', 'a', 'r', 'i', 'a', 'n', 't', ' ', 'W', '3', '2'], ['G', 'E', 'N']] =
      some (.w32, [.gen]) := by decide +kernel

end Sys2Proof.Tests
end

section
/-! The variant along steps (R2), and what the output ports show (R13, R234). -/

namespace Sys2Proof.Machine

/-! ### The variant is kept -/

@[simp] theorem recoverEdge_variant (s : State) : s.recoverEdge.variant = s.variant := rfl

theorem runPorts_keeps_variant {p : Ports} {s t : State} (h : runPorts p s = .next t) :
    t.variant = s.variant := by
  obtain ⟨r, rfl⟩ := runPorts_changes_registers_only h
  exact setRegs_variant s r

/-- Settles O40: an edge builds its next state with the variant of the old one, and a command that completes there
writes registers alone. -/
theorem stepKeepsVariant : Obligations.StepKeepsVariant := by
  intro s t h
  obtain ⟨_, rfl⟩ | ⟨_, _, rfl⟩ | ⟨p, _, _, _, rfl⟩ | ⟨p, _, _, _, hrun⟩ | ⟨_, _, _, rfl⟩ |
    ⟨p, _, _, _, _, rfl⟩ | ⟨p, _, _, _, _, hrun⟩ := step_cases h
  -- reset, and recovery from it
  · exact resetEdge_variant s
  · exact recoverEdge_variant s
  -- a command in progress: it goes on, or it completes
  · exact pastEdge_variant s (.busy p) s.offer
  · exact (runPorts_keeps_variant hrun).trans (pastEdge_variant s .ready s.offer)
  -- a ready core: no offer, an offer accepted, an offer accepted and completed
  · exact pastEdge_variant s .ready none
  · exact pastEdge_variant s (.busy p) none
  · exact (runPorts_keeps_variant hrun).trans (pastEdge_variant s .ready none)

/-! ### The output ports -/

theorem cmdReady_eq_true_iff (s : State) :
    s.cmdReady = true ↔ s.phase = .ready ∧ s.edgeNow.rst = false := by
  simp [State.cmdReady]

theorem sample_of_cmdReady {s : State} (h : s.cmdReady = true) : s.sample = some s.regs.sampled :=
  if_pos h

theorem sample_of_not_cmdReady {s : State} (h : ¬ s.cmdReady = true) : s.sample = none :=
  if_neg h

theorem sample_eq_none_iff (s : State) : s.sample = none ↔ ¬ s.cmdReady = true := by
  refine ⟨fun hnone hready => ?_, sample_of_not_cmdReady⟩
  rw [sample_of_cmdReady hready] at hnone
  cases hnone

/-- `L`, `R1` and `R2` are on no port (R13). -/
theorem outputs_of_cipher_words {v : Variant} (r : Regs v) (l : Vector (Word v) 16) (r1 r2 : Word v) :
    ({ r with l := l, r1 := r1, r2 := r2 } : Regs v).outputs = r.outputs := rfl

/-- Settles O35: the ports are read from fields other than `L`, `R1`, `R2`, and a sample is cut off by `cmd_ready`
alone. -/
theorem portsHideCipherState : Obligations.PortsHideCipherState := by
  refine ⟨fun _ _ => ⟨rfl, rfl, rfl, rfl⟩, fun _ => outputs_of_cipher_words, fun s => ?_,
    fun _ => sample_of_cmdReady⟩
  rw [sample_eq_none_iff, cmdReady_eq_true_iff, not_and_or, Bool.not_eq_false]

end Sys2Proof.Machine
end

section
/-! The registers (R20 to R36): who writes each of them, the layout of `status`, the values after reset, and what every
clock edge keeps. -/

namespace Sys2Proof.Machine

open Sys2Proof.SpecText

/-! ### What each command writes -/

/-- `CommandWrites r i r'`: command `i` turns the registers `r` into `r'`, one rule per path of R165 to R169.
`exec_completes` and `exec_next_writes` tie it to `exec`. -/
inductive CommandWrites {v : Variant} (r : Regs v) : Instr → Regs v → Prop where
  | nop : CommandWrites r .nop r
  | init (k0 k1 k2 : BitVec 32) :
      CommandWrites r (.init k0 k1 k2) (r.loadKey (keyWord v k0) (keyWord v k1) (keyWord v k2))
  | gen (hkeyed : r.keyed = true) : CommandWrites r .gen r.genCycle
  | genUnkeyed (hunkeyed : r.keyed = false) : CommandWrites r .gen (r.raise .notKeyed)
  | xorb (b : Byte) (hkeyed : r.keyed = true) : CommandWrites r (.xorb b) (r.xorByte b)
  | xorbUnkeyed (b : Byte) (hunkeyed : r.keyed = false) : CommandWrites r (.xorb b) (r.raise .notKeyed)
  | msg : CommandWrites r .msg r.startMessage

/-- Every command completes, by one of the rules. -/
theorem exec_completes (i : Instr) (s : State) :
    ∃ r, CommandWrites s.regs i r ∧ exec i s = .next (s.setRegs r) := by
  cases i with
  | nop => exact ⟨_, .nop, rfl⟩
  | init k0 k1 k2 => exact ⟨_, .init k0 k1 k2, rfl⟩
  | gen =>
    cases hk : s.regs.keyed with
    | true => exact ⟨_, .gen hk, if_pos hk⟩
    | false => exact ⟨_, .genUnkeyed hk, if_neg (by simp [hk])⟩
  | xorb b =>
    cases hk : s.regs.keyed with
    | true => exact ⟨_, .xorb b hk, if_pos hk⟩
    | false => exact ⟨_, .xorbUnkeyed b hk, if_neg (by simp [hk])⟩
  | msg => exact ⟨_, .msg, rfl⟩

/-- The next state of a command is the one a rule gives. -/
theorem exec_next_writes {i : Instr} {s t : State} (h : exec i s = .next t) :
    ∃ r, CommandWrites s.regs i r ∧ t = s.setRegs r := by
  obtain ⟨r, hw, hexec⟩ := exec_completes i s
  rw [hexec] at h
  cases h
  exact ⟨r, hw, rfl⟩

theorem setRegs_inj {s : State} {q r : Regs s.variant} : s.setRegs q = s.setRegs r ↔ q = r := by
  simp [State.setRegs]

/-- An accepted command follows its rule, or its opcode is reserved and `ILLEGAL_OP` is raised (R74, R77). -/
theorem runPorts_next_writes {p : Ports} {s t : State} (h : runPorts p s = .next t) :
    ∃ r, t = s.setRegs r ∧ ((∃ i, CommandWrites s.regs i r) ∨ r = s.regs.raise .illegalOp) := by
  unfold runPorts at h
  split at h
  next i _ =>
    obtain ⟨r, hw, rfl⟩ := exec_next_writes h
    exact ⟨r, rfl, .inl ⟨i, hw⟩⟩
  next =>
    cases h
    exact ⟨_, rfl, .inr rfl⟩

/-! ### Who writes each register (R22 to R29) -/

namespace CommandWrites

variable {v : Variant} {r r' : Regs v} {i : Instr}

theorem cipherWords_kept (hw : CommandWrites r i r') (hinit : ¬ IsInit i) (hcycle : ¬ RunsCycle i r) :
    r'.l = r.l ∧ r'.r1 = r.r1 ∧ r'.r2 = r.r2 := by
  cases hw with
  | init k0 k1 k2 => exact absurd ⟨k0, k1, k2, rfl⟩ hinit
  | gen hkeyed => exact absurd ⟨hkeyed, .inl rfl⟩ hcycle
  | xorb b hkeyed =>
    have hlane : r.lane.val ≠ 0 := fun h0 => hcycle ⟨hkeyed, .inr ⟨b, rfl, h0⟩⟩
    simp [fetchWord_later r hlane]
  | nop | genUnkeyed | xorbUnkeyed | msg => exact ⟨rfl, rfl, rfl⟩

theorem keystream_kept (hw : CommandWrites r i r') (hcycle : ¬ RunsCycle i r) :
    r'.ks = r.ks ∧ r'.ksWritten = r.ksWritten := by
  cases hw with
  | gen hkeyed => exact absurd ⟨hkeyed, .inl rfl⟩ hcycle
  | xorb b hkeyed =>
    have hlane : r.lane.val ≠ 0 := fun h0 => hcycle ⟨hkeyed, .inr ⟨b, rfl, h0⟩⟩
    simp [fetchWord_later r hlane]
  | nop | init | genUnkeyed | xorbUnkeyed | msg => exact ⟨rfl, rfl⟩

theorem lane_kept (hw : CommandWrites r i r') (hinit : ¬ IsInit i) (hxorb : ¬ IsXorb i) (hmsg : i ≠ .msg) :
    r'.lane = r.lane := by
  cases hw with
  | init k0 k1 k2 => exact absurd ⟨k0, k1, k2, rfl⟩ hinit
  | xorb b => exact absurd ⟨b, rfl⟩ hxorb
  | msg => exact absurd rfl hmsg
  | gen => exact genCycle_lane r
  | nop | genUnkeyed | xorbUnkeyed => rfl

theorem dout_kept (hw : CommandWrites r i r') (hbyte : ¬ (IsXorb i ∧ r.keyed = true)) :
    r'.dout = r.dout ∧ r'.doutWritten = r.doutWritten := by
  cases hw with
  | xorb b hkeyed => exact absurd ⟨⟨b, rfl⟩, hkeyed⟩ hbyte
  | gen => exact ⟨genCycle_dout r, genCycle_doutWritten r⟩
  | nop | init | genUnkeyed | xorbUnkeyed | msg => exact ⟨rfl, rfl⟩

theorem keyed_iff (hw : CommandWrites r i r') : r'.keyed = true ↔ r.keyed = true ∨ IsInit i := by
  cases hw with
  | init k0 k1 k2 => exact iff_of_true rfl (.inr ⟨k0, k1, k2, rfl⟩)
  | nop | gen | genUnkeyed | xorb | xorbUnkeyed | msg => simp [IsInit]

theorem error_kept (hw : CommandWrites r i r') (hkey : ¬ (r.keyed = false ∧ (i = .gen ∨ IsXorb i))) :
    r'.err = r.err ∧ r'.ecause = r.ecause := by
  cases hw with
  | genUnkeyed hunkeyed => exact absurd ⟨hunkeyed, .inl rfl⟩ hkey
  | xorbUnkeyed b hunkeyed => exact absurd ⟨hunkeyed, .inr ⟨b, rfl⟩⟩ hkey
  | nop | init | gen | xorb | msg => simp

end CommandWrites

/-- Settles O26: each clause is read off the rules of the commands, register by register. -/
theorem writersOfEachRegister : Obligations.WritersOfEachRegister := by
  intro i s r h
  obtain ⟨q, hw, hq⟩ := exec_next_writes h
  obtain rfl : r = q := setRegs_inj.mp hq
  exact ⟨hw.cipherWords_kept, hw.keystream_kept, hw.lane_kept, hw.dout_kept, hw.keyed_iff, hw.error_kept⟩

/-- Settles O27: an unkeyed core runs no generation cycle and no byte consumer, so their registers have no writer
but `INIT`. -/
theorem unkeyedCoreNeverGenerates : Obligations.UnkeyedCoreNeverGenerates := by
  intro i s hunkeyed hinit
  have hkey : ¬ s.regs.keyed = true := by simp [hunkeyed]
  have hcycle : ¬ RunsCycle i s.regs := fun h => hkey h.1
  obtain ⟨r, hw, hexec⟩ := exec_completes i s
  obtain ⟨hl, hr1, hr2⟩ := hw.cipherWords_kept hinit hcycle
  obtain ⟨hks, hksWritten⟩ := hw.keystream_kept hcycle
  obtain ⟨hdout, hdoutWritten⟩ := hw.dout_kept fun h => hkey h.2
  have hkeyed : r.keyed = false :=
    Bool.eq_false_iff.mpr fun h => (hw.keyed_iff.mp h).elim hkey hinit
  exact ⟨r, hexec, hl, hr1, hr2, hks, hdout, hkeyed, hksWritten, hdoutWritten⟩

/-! ### The first error is sticky (R28, R203) -/

theorem raise_keeps_recorded_error {v : Variant} {r : Regs v} (c : ErrCause) (herr : r.err = true) :
    (r.raise c).err = true ∧ (r.raise c).ecause = r.ecause := by
  simp [herr]

theorem CommandWrites.keeps_recorded_error {v : Variant} {r r' : Regs v} {i : Instr}
    (hw : CommandWrites r i r') (herr : r.err = true) : r'.err = true ∧ r'.ecause = r.ecause := by
  cases hw with
  | genUnkeyed | xorbUnkeyed => exact raise_keeps_recorded_error .notKeyed herr
  | nop | init | gen | xorb | msg => simp [herr]

theorem runPorts_keeps_recorded_error {p : Ports} {s t : State} (h : runPorts p s = .next t)
    (herr : s.regs.err = true) : t.regs.err = true ∧ t.regs.ecause = s.regs.ecause := by
  obtain ⟨r, rfl, ⟨i, hw⟩ | rfl⟩ := runPorts_next_writes h
  · exact hw.keeps_recorded_error herr
  · exact raise_keeps_recorded_error .illegalOp herr

/-- Settles O32: without reset an edge keeps the registers or completes a command, which never lowers `ERR` and writes
`ECAUSE` only while `ERR` is 0. -/
theorem recordedErrorStays : Obligations.RecordedErrorStays := by
  intro s t h hrst herr
  obtain ⟨hreset, _⟩ | ⟨_, _, rfl⟩ | ⟨_, _, _, _, rfl⟩ | ⟨_, _, _, _, hrun⟩ | ⟨_, _, _, rfl⟩ |
    ⟨_, _, _, _, _, rfl⟩ | ⟨_, _, _, _, _, hrun⟩ := step_cases h
  -- reset, which the premise excludes, and recovery from it
  · rw [hrst] at hreset; cases hreset
  · exact ⟨herr, rfl⟩
  -- a command in progress: it goes on, or it completes
  · exact ⟨herr, rfl⟩
  · exact runPorts_keeps_recorded_error (s := s.pastEdge _ _) hrun herr
  -- a ready core: no offer, an offer accepted, an offer accepted and completed
  · exact ⟨herr, rfl⟩
  · exact ⟨herr, rfl⟩
  · exact runPorts_keeps_recorded_error (s := s.pastEdge _ _) hrun herr

/-! ### The layout of `status` (R30) -/

section Status

variable {v : Variant} (r : Regs v)

theorem status_keyed : r.status.getLsbD 0 = r.keyed := by
  rw [Regs.status, BitVec.getLsbD_append]
  simp

theorem status_err : r.status.getLsbD 1 = r.err := by
  rw [Regs.status, BitVec.getLsbD_append, BitVec.getLsbD_append]
  simp

/-- Two bits of `status` above the flags `KEYED` and `ERR`. -/
theorem status_above_flags (i : Nat) :
    r.status.extractLsb' (i + 2) 2 =
      (0#2 ++ r.ecause.bits ++ BitVec.ofNat 2 r.lane.val).extractLsb' i 2 := by
  rw [Regs.status, BitVec.extractLsb'_append_eq_of_le (by omega), BitVec.extractLsb'_append_eq_of_le (by omega)]
  rfl

theorem status_lane : r.status.extractLsb' 2 2 = BitVec.ofNat 2 r.lane.val :=
  (status_above_flags r 0).trans BitVec.extractLsb'_append_eq_right

theorem status_ecause : r.status.extractLsb' 4 2 = r.ecause.bits := by
  rw [status_above_flags r 2, BitVec.extractLsb'_append_eq_of_le le_rfl]
  exact BitVec.extractLsb'_append_eq_right

theorem status_top : r.status.extractLsb' 6 2 = 0#2 := by
  rw [status_above_flags r 4, BitVec.extractLsb'_append_eq_of_le (by decide)]
  exact BitVec.extractLsb'_append_eq_left

theorem lane_lt_four (j : Lane v) : j.val < 4 :=
  j.isLt.trans_le (by cases v <;> decide)

theorem ecauseBits_toNat (c : ErrCause) : c.bits.toNat = causeCode c := by cases c <;> rfl

theorem status_of_isReset (h : r.IsReset) : r.status = 0x00#8 := by
  obtain ⟨hkeyed, herr, hecause, hlane⟩ := h
  simp only [Regs.status, hkeyed, herr, hecause, hlane]
  rfl

end Status

/-- Settles O34: field by field, from the concatenation that `status` is. -/
theorem statusLayout : Obligations.StatusLayout := by
  refine ⟨fun v r => ⟨status_keyed r, status_err r, ?_, ?_, ?_⟩, fun v => status_of_isReset⟩
  · rw [status_lane, BitVec.toNat_ofNat, Nat.mod_eq_of_lt (lane_lt_four r.lane)]
  · rw [status_ecause, ecauseBits_toNat]
  · rw [status_top]; rfl

/-! ### After reset (R34) -/

theorem afterReset_isReset {v : Variant} (l : Vector (Word v) 16) (r1 r2 ks : Word v) (dout : Byte) :
    (Regs.afterReset l r1 r2 ks dout).IsReset := ⟨rfl, rfl, rfl, rfl⟩

theorem resetOf_isReset (v : Variant) : (State.resetOf v).regs.IsReset := afterReset_isReset ..

/-- Settles O36: the registers of `State.resetOf` are those of R34, and its `status` follows from them. -/
theorem resetLeavesFlagsClear : Obligations.ResetLeavesFlagsClear :=
  ⟨fun v => ⟨rfl, resetOf_isReset v, status_of_isReset _ (resetOf_isReset v), rfl, rfl, rfl⟩,
    resetOf_isReset Config.variant⟩

/-! ### The invariant -/

/-- The clauses of `State.Inv` about the registers. -/
def Regs.Inv {v : Variant} (r : Regs v) : Prop :=
  (r.ecause = .noError ↔ r.err = false) ∧
  (r.keyed = false → r.ksWritten = false ∧ r.lane.val = 0) ∧
  (r.lane.val ≠ 0 → r.ksWritten = true) ∧
  (r.doutWritten = true → r.ksWritten = true)

/-- The clauses of `State.Inv` about the command port. -/
def State.PortInv (s : State) : Prop :=
  (∀ p, s.phase = .busy p → onWires s.variant p) ∧ (∀ p, s.waiting = some p → onWires s.variant p)

theorem inv_iff (s : State) : s.Inv ↔ s.regs.Inv ∧ s.PortInv := by
  simp only [State.Inv, Regs.Inv, State.PortInv, and_assoc]

section RegsInv

variable {v : Variant} {r : Regs v}

theorem afterReset_inv (l : Vector (Word v) 16) (r1 r2 ks : Word v) (dout : Byte) :
    (Regs.afterReset l r1 r2 ks dout).Inv :=
  ⟨iff_of_true rfl rfl, fun _ => ⟨rfl, rfl⟩, absurd rfl, nofun⟩

theorem raise_inv (h : r.Inv) {c : ErrCause} (hc : c ≠ .noError) : (r.raise c).Inv := by
  obtain ⟨hcause, hkeyed, hlane, hdout⟩ := h
  refine ⟨?_, hkeyed, hlane, hdout⟩
  cases herr : r.err <;> simp [herr, hc, hcause]

theorem loadKey_inv (h : r.Inv) (k0 k1 k2 : Word v) : (r.loadKey k0 k1 k2).Inv := by
  obtain ⟨hcause, _, _, hdout⟩ := h
  exact ⟨hcause, nofun, absurd rfl, hdout⟩

theorem startMessage_inv (h : r.Inv) : r.startMessage.Inv := by
  obtain ⟨hcause, hkeyed, _, hdout⟩ := h
  exact ⟨hcause, fun hk => ⟨(hkeyed hk).1, rfl⟩, absurd rfl, hdout⟩

/-- In a keyed core whose `KS` is written, every clause but the one on errors holds. -/
theorem inv_of_keyed_of_ksWritten (hcause : r.ecause = .noError ↔ r.err = false) (hkeyed : r.keyed = true)
    (hks : r.ksWritten = true) : r.Inv :=
  ⟨hcause, fun h => by simp [hkeyed] at h, fun _ => hks, fun _ => hks⟩

theorem genCycle_inv (h : r.Inv) (hkeyed : r.keyed = true) : r.genCycle.Inv :=
  inv_of_keyed_of_ksWritten (by simpa using h.1) (by simpa using hkeyed) (genCycle_ksWritten r)

theorem fetchWord_ksWritten_of_inv (h : r.Inv) : r.fetchWord.ksWritten = true := by
  obtain ⟨_, _, hlane, _⟩ := h
  by_cases h0 : r.lane.val = 0
  · rw [fetchWord_first r h0, genCycle_ksWritten]
  · rw [fetchWord_later r h0, hlane h0]

theorem xorByte_inv (h : r.Inv) (hkeyed : r.keyed = true) (b : Byte) : (r.xorByte b).Inv :=
  inv_of_keyed_of_ksWritten (by simpa using h.1) (by simpa using hkeyed) (fetchWord_ksWritten_of_inv h)

theorem CommandWrites.keeps_inv {r' : Regs v} {i : Instr} (hw : CommandWrites r i r') (h : r.Inv) : r'.Inv := by
  cases hw with
  | nop => exact h
  | init => exact loadKey_inv h ..
  | gen hkeyed => exact genCycle_inv h hkeyed
  | xorb b hkeyed => exact xorByte_inv h hkeyed b
  | genUnkeyed | xorbUnkeyed => exact raise_inv h nofun
  | msg => exact startMessage_inv h

end RegsInv

theorem resetOf_inv (v : Variant) : (State.resetOf v).Inv :=
  (inv_iff _).mpr ⟨afterReset_inv .., nofun, nofun⟩

/-- Settles O38: reset clears every flag the invariant speaks of, and the port carries no command. -/
theorem invariantHoldsAtReset : Obligations.InvariantHoldsAtReset :=
  ⟨resetOf_inv, resetOf_inv Config.variant⟩

/-- An offer is read from the lines the variant has. -/
theorem offer_onWires {s : State} {p : Ports} (h : s.offer = some p) : onWires s.variant p := by
  obtain ⟨_, ⟨⟩⟩ := Option.ite_none_right_eq_some.mp h
  exact wires_wires s.variant s.edgeNow.ports

theorem runPorts_keeps_inv {p : Ports} {s t : State} (h : runPorts p s = .next t) (hs : s.Inv) : t.Inv := by
  obtain ⟨hregs, hport⟩ := (inv_iff s).mp hs
  obtain ⟨r, rfl, ⟨i, hw⟩ | rfl⟩ := runPorts_next_writes h
  · exact (inv_iff _).mpr ⟨hw.keeps_inv hregs, hport⟩
  · exact (inv_iff _).mpr ⟨raise_inv hregs nofun, hport⟩

theorem pastEdge_inv {s : State} (hs : s.Inv) {ph : Phase} {w : Option Ports}
    (hph : ∀ p, ph = .busy p → onWires s.variant p) (hw : ∀ p, w = some p → onWires s.variant p) :
    (s.pastEdge ph w).Inv :=
  (inv_iff _).mpr ⟨((inv_iff s).mp hs).1, hph, hw⟩

/-- The core's standing after reset, or while it recovers from it, holds no command. -/
theorem ready_or_resetting_ne_busy (done : Bool) (p : Ports) :
    (if done then Phase.ready else .resetting) ≠ .busy p := by
  cases done <;> nofun

theorem resetEdge_inv (s : State) : s.resetEdge.Inv :=
  (inv_iff _).mpr ⟨afterReset_inv .., fun p h => absurd h (ready_or_resetting_ne_busy _ p),
    fun _ => offer_onWires⟩

theorem recoverEdge_inv {s : State} (hs : s.Inv) : s.recoverEdge.Inv :=
  pastEdge_inv hs (fun p h => absurd h (ready_or_resetting_ne_busy _ p)) fun _ => offer_onWires

/-- Settles O39: a reset edge gives the flags of R34; any other edge moves the port along, where only offers enter, and
may complete a command, whose rule keeps the clauses on the registers. -/
theorem stepKeepsInvariant : Obligations.StepKeepsInvariant := by
  intro s t hs h
  obtain ⟨_, hbusy, _⟩ := (inv_iff s).mp hs
  obtain ⟨_, rfl⟩ | ⟨_, _, rfl⟩ | ⟨p, _, hp, _, rfl⟩ | ⟨p, _, _, _, hrun⟩ | ⟨_, _, _, rfl⟩ |
    ⟨p, _, _, ho, _, rfl⟩ | ⟨p, _, _, _, _, hrun⟩ := step_cases h
  -- reset, and recovery from it
  · exact resetEdge_inv s
  · exact recoverEdge_inv hs
  -- a command in progress: it goes on, or it completes
  · exact pastEdge_inv hs (by rintro _ ⟨⟩; exact hbusy p hp) fun _ => offer_onWires
  · exact runPorts_keeps_inv hrun (pastEdge_inv hs nofun fun _ => offer_onWires)
  -- a ready core: no offer, an offer accepted, an offer accepted and completed
  · exact pastEdge_inv hs nofun nofun
  · exact pastEdge_inv hs (by rintro _ ⟨⟩; exact offer_onWires ho) nofun
  · exact runPorts_keeps_inv hrun (pastEdge_inv hs nofun nofun)

end Sys2Proof.Machine
end

section
/-! What commands do to the registers as functions, the lanes of a word (R52), and the order in which the commands a
core accepts take effect (R57, R59, R71). -/

namespace Sys2Proof.Machine

open Sys2Proof.SpecText

/-! ### The lanes of a word (R52) -/

theorem laneByte_toNat {v : Variant} (w : Word v) (j : Lane v) :
    (laneByte w j).toNat = w.toNat / 2 ^ (v.width - 8 - 8 * j.val) % 256 := by
  rw [laneByte, BitVec.extractLsb'_toNat, Nat.shiftRight_eq_div_pow]

/-- Settles O11: `laneByte` is the field R52 names, and at each lane of the two variants its bounds are
the numbers written out. -/
theorem lanesAreBigEndian : Obligations.LanesAreBigEndian :=
  ⟨fun _ => laneByte_toNat, fun _ => ⟨rfl, rfl⟩, fun _ => ⟨rfl, rfl, rfl, rfl⟩⟩

/-! ### Commands as functions of the registers -/

/-- The registers a command leaves (R165 to R169); `exec_eq_next` ties it to `exec`. -/
def Regs.command {v : Variant} (r : Regs v) : Instr → Regs v
  | .nop => r
  | .init k0 k1 k2 => r.loadKey (keyWord v k0) (keyWord v k1) (keyWord v k2)
  | .gen => if r.keyed then r.genCycle else r.raise .notKeyed
  | .xorb b => if r.keyed then r.xorByte b else r.raise .notKeyed
  | .msg => r.startMessage

/-- The registers an accepted command leaves, from its port values (R74, R77); `runPorts_eq_next` ties it to
`runPorts`. -/
def Regs.accept {v : Variant} (r : Regs v) (p : Ports) : Regs v :=
  match decode v p with
  | .ok i => r.command i
  | .error _ => r.raise .illegalOp

theorem CommandWrites.eq_command {v : Variant} {r r' : Regs v} {i : Instr} (hw : CommandWrites r i r') :
    r' = r.command i := by
  cases hw with
  | nop | init | msg => rfl
  | gen hkeyed | xorb _ hkeyed => exact (if_pos hkeyed).symm
  | genUnkeyed hunkeyed | xorbUnkeyed _ hunkeyed => exact (if_neg (by simp [hunkeyed])).symm

theorem exec_eq_next (i : Instr) (s : State) : exec i s = .next (s.setRegs (s.regs.command i)) := by
  obtain ⟨r, hw, hexec⟩ := exec_completes i s
  rw [hexec, hw.eq_command]

theorem runPorts_eq_next (p : Ports) (s : State) : runPorts p s = .next (s.setRegs (s.regs.accept p)) := by
  unfold runPorts Regs.accept
  cases decode s.variant p with
  | ok i => exact exec_eq_next i s
  | error x => rfl

theorem runAccepted_eq_some (ps : List Ports) (s : State) :
    runAccepted ps s = some (s.setRegs (ps.foldl Regs.accept s.regs)) := by
  induction ps generalizing s with
  | nil => rfl
  | cons p ps ih => rw [runAccepted, runPorts_eq_next]; exact ih _

/-! ### Idempotent commands (R57) -/

theorem command_command {i : Instr} (hi : IsInit i ∨ i = .msg ∨ i = .nop) {v : Variant} (r : Regs v) :
    (r.command i).command i = r.command i := by
  -- `INIT` and `MSG` write values that do not depend on the registers, and `NOP` writes none
  obtain ⟨_, _, _, rfl⟩ | rfl | rfl := hi <;> rfl

/-- Settles O28: the registers a second such command leaves are those of the first. -/
theorem initMsgNopAreIdempotent : Obligations.InitMsgNopAreIdempotent := by
  intro i s t hi h
  rw [exec_eq_next] at h
  cases h
  calc exec i (s.setRegs (s.regs.command i))
    _ = .next (s.setRegs ((s.regs.command i).command i)) := exec_eq_next i _
    _ = .next (s.setRegs (s.regs.command i)) := by rw [command_command hi]

/-! ### Edges without reset (R59, R71) -/

/-- Past the listed edges `rst` is 0. -/
theorem edgeNow_rst_eq_false {s : State} {n : Nat} (h : ∀ e ∈ s.edges.take (n + 1), e.rst = false) :
    s.edgeNow.rst = false := by
  unfold State.edgeNow
  cases hs : s.edges with
  | nil => rfl
  | cons e rest => exact h e (by simp [hs])

theorem accepts_of_ready {s : State} (hphase : s.phase = .ready) (hrst : s.edgeNow.rst = false) :
    s.accepts = s.offer.toList :=
  if_pos ((cmdReady_eq_true_iff s).mpr ⟨hphase, hrst⟩)

theorem accepts_of_not_ready {s : State} (hphase : s.phase ≠ .ready) : s.accepts = [] :=
  if_neg fun hready => hphase ((cmdReady_eq_true_iff s).mp hready).1

theorem inProgress_ready_or_resetting (done : Bool) :
    (if done then Phase.ready else .resetting).inProgress = [] := by
  cases done <;> rfl

/-- The bookkeeping of one edge without reset: the commands `finished` there, run in order, give the new registers, and
with the one then in progress they are the one that was in progress and the one accepted. -/
theorem step_finishes {s t : State} (h : step s = .next t) (hrst : s.edgeNow.rst = false) :
    ∃ (ph : Phase) (w : Option Ports) (finished : List Ports),
      t = (s.pastEdge ph w).setRegs (finished.foldl Regs.accept s.regs) ∧
      s.phase.inProgress ++ s.accepts = finished ++ ph.inProgress := by
  obtain ⟨hreset, _⟩ | ⟨_, hp, rfl⟩ | ⟨p, _, hp, _, rfl⟩ | ⟨p, _, hp, _, hrun⟩ | ⟨_, hp, ho, rfl⟩ |
    ⟨p, _, hp, ho, _, rfl⟩ | ⟨p, _, hp, ho, _, hrun⟩ := step_cases h
  -- reset, which the premise excludes, and recovery from it
  · rw [hrst] at hreset; cases hreset
  · refine ⟨if s.edgeNow.done then .ready else .resetting, s.offer, [], rfl, ?_⟩
    rw [hp, accepts_of_not_ready (by simp [hp]), inProgress_ready_or_resetting]; rfl
  -- a command in progress: it goes on, or it completes
  · refine ⟨.busy p, s.offer, [], rfl, ?_⟩
    rw [hp, accepts_of_not_ready (by simp [hp])]; rfl
  · rw [runPorts_eq_next] at hrun
    cases hrun
    refine ⟨.ready, s.offer, [p], rfl, ?_⟩
    rw [hp, accepts_of_not_ready (by simp [hp])]; rfl
  -- a ready core: no offer, an offer accepted, an offer accepted and completed
  · refine ⟨.ready, none, [], rfl, ?_⟩
    rw [accepts_of_ready hp hrst, hp, ho]; rfl
  · refine ⟨.busy p, none, [], rfl, ?_⟩
    rw [accepts_of_ready hp hrst, hp, ho]; rfl
  · rw [runPorts_eq_next] at hrun
    cases hrun
    refine ⟨.ready, none, [p], rfl, ?_⟩
    rw [accepts_of_ready hp hrst, hp, ho]; rfl

theorem runEdges_succ_next {n : Nat} {s t : State} (h : runEdges (n + 1) s = .next t) :
    ∃ s', step s = .next s' ∧ runEdges n s' = .next t := by
  rw [runEdges] at h
  cases hstep : step s with
  | next s' => exact ⟨s', rfl, by simpa [hstep] using h⟩
  | fault f => simp [hstep] at h
  | refused x => simp [hstep] at h

theorem acceptedIn_succ {n : Nat} {s s' : State} (h : step s = .next s') :
    acceptedIn (n + 1) s = s.accepts ++ acceptedIn n s' := by
  simp only [acceptedIn, h]

/-- The bookkeeping of `step_finishes` over `n` edges. -/
theorem runEdges_finishes (n : Nat) {s t : State} (hrst : ∀ e ∈ s.edges.take n, e.rst = false)
    (h : runEdges n s = .next t) :
    ∃ finished : List Ports,
      s.phase.inProgress ++ acceptedIn n s = finished ++ t.phase.inProgress ∧
      regsOf t = ⟨s.variant, finished.foldl Regs.accept s.regs⟩ := by
  induction n generalizing s with
  | zero =>
    cases h
    exact ⟨[], List.append_nil _, rfl⟩
  | succ n ih =>
    obtain ⟨s', hstep, hrest⟩ := runEdges_succ_next h
    obtain ⟨ph, w, first, rfl, hfirst⟩ := step_finishes hstep (edgeNow_rst_eq_false hrst)
    have hrst' : ∀ e ∈ s.edges.tail.take n, e.rst = false := fun e he =>
      hrst e (List.mem_of_mem_tail (by rwa [List.tail_take_eq_take_tail]))
    obtain ⟨later, hlater, hregs⟩ := ih hrst' hrest
    refine ⟨first ++ later, ?_, ?_⟩
    · calc s.phase.inProgress ++ acceptedIn (n + 1) s
        _ = first ++ (ph.inProgress ++ acceptedIn n _) := by
          rw [acceptedIn_succ hstep, ← List.append_assoc, hfirst, List.append_assoc]
        _ = (first ++ later) ++ t.phase.inProgress := by
          rw [List.append_assoc, ← hlater]; rfl
    · rw [List.foldl_append]
      exact hregs

/-- Settles O47: edge by edge, each accepted command is finished once and in order, or it is the one in progress. -/
theorem commandsTakeEffectInOrder : Obligations.CommandsTakeEffectInOrder := by
  intro n s t hrst h
  obtain ⟨finished, hcommands, hregs⟩ := runEdges_finishes n hrst h
  exact ⟨finished, _, hcommands, runAccepted_eq_some finished s, hregs.symm⟩

end Sys2Proof.Machine
end

section
/-! The decoder and the encoder: the opcode map row by row, and that they agree (R72 to R74, R77, R213). -/

namespace Sys2Proof

open Sys2Proof.SpecText

/-! ### The opcode map, one equation a row (R72, R74) -/

section OpcodeMap

variable (v : Variant) {p : Ports}

theorem decode_of_op_nop (h : p.op = 0b000#3) : decode v p = .ok .nop := by simp [decode, h]

theorem decode_of_op_init (h : p.op = 0b001#3) :
    decode v p = .ok (.init (keyLines v p.key0) (keyLines v p.key1) (key2Lines v p.key2)) := by simp [decode, h]

theorem decode_of_op_gen (h : p.op = 0b010#3) : decode v p = .ok .gen := by simp [decode, h]

theorem decode_of_op_xorb (h : p.op = 0b011#3) : decode v p = .ok (.xorb p.din) := by simp [decode, h]

theorem decode_of_op_msg (h : p.op = 0b100#3) : decode v p = .ok .msg := by simp [decode, h]

theorem decode_of_isReserved (h : IsReserved p.op) : decode v p = .error (.illegalOp p.op) := by
  obtain h | h | h := h <;> simp [decode, h]

end OpcodeMap

/-- Every opcode has a row in the map or is reserved. -/
theorem op_cases (op : BitVec 3) :
    op = 0b000#3 ∨ op = 0b001#3 ∨ op = 0b010#3 ∨ op = 0b011#3 ∨ op = 0b100#3 ∨ IsReserved op := by
  unfold IsReserved
  revert op
  decide

/-- The row of the opcode map that gives a decoded command. -/
theorem decode_ok_cases {v : Variant} {p : Ports} {i : Instr} (h : decode v p = .ok i) :
    (p.op = 0b000#3 ∧ i = .nop) ∨
    (p.op = 0b001#3 ∧ i = .init (keyLines v p.key0) (keyLines v p.key1) (key2Lines v p.key2)) ∨
    (p.op = 0b010#3 ∧ i = .gen) ∨ (p.op = 0b011#3 ∧ i = .xorb p.din) ∨ (p.op = 0b100#3 ∧ i = .msg) := by
  obtain hop | hop | hop | hop | hop | hop := op_cases p.op
  · rw [decode_of_op_nop v hop] at h; cases h; exact .inl ⟨hop, rfl⟩
  · rw [decode_of_op_init v hop] at h; cases h; exact .inr (.inl ⟨hop, rfl⟩)
  · rw [decode_of_op_gen v hop] at h; cases h; exact .inr (.inr (.inl ⟨hop, rfl⟩))
  · rw [decode_of_op_xorb v hop] at h; cases h; exact .inr (.inr (.inr (.inl ⟨hop, rfl⟩)))
  · rw [decode_of_op_msg v hop] at h; cases h; exact .inr (.inr (.inr (.inr ⟨hop, rfl⟩)))
  · rw [decode_of_isReserved v hop] at h; cases h

/-- Settles O1: each word is a row of the opcode map with operands written out. -/
theorem opcodeWordsDecode : Obligations.OpcodeWordsDecode :=
  ⟨decode_of_op_nop .n16 rfl, decode_of_op_init .n16 rfl, decode_of_op_init .w32 rfl, decode_of_op_gen .w32 rfl,
    decode_of_op_xorb .n16 rfl, decode_of_op_msg .w32 rfl⟩

/-! ### Operands -/

theorem wellFormed_init_iff {v : Variant} {k0 k1 k2 : BitVec 32} :
    WellFormed v (.init k0 k1 k2) = true ↔
      keyFits v k0 = true ∧ keyFits v k1 = true ∧ key2Fits v k2 = true := by
  simp [WellFormed, and_assoc]

/-- A command with no key word can be presented to either variant. -/
theorem wellFormed_of_not_isInit {v : Variant} {i : Instr} (h : ¬ IsInit i) : WellFormed v i = true := by
  cases i with
  | init k0 k1 k2 => exact absurd ⟨k0, k1, k2, rfl⟩ h
  | nop | gen | xorb | msg => rfl

/-- Settles O3: the encoder writes the opcode of the command's own row, and a key word that fits its port survives the
port's lines. -/
theorem decodeOfEncodeIsIdentity : Obligations.DecodeOfEncodeIsIdentity := by
  intro v i h
  cases i with
  | nop => exact decode_of_op_nop v rfl
  | init k0 k1 k2 =>
    obtain ⟨h0, h1, h2⟩ := wellFormed_init_iff.mp h
    calc decode v (encode (.init k0 k1 k2))
      _ = .ok (.init (keyLines v k0) (keyLines v k1) (key2Lines v k2)) := decode_of_op_init v rfl
      _ = .ok (.init k0 k1 k2) := by
        rw [Laws.keyLines_of_keyFits h0, Laws.keyLines_of_keyFits h1, Laws.key2Lines_of_key2Fits h2]
  | gen => exact decode_of_op_gen v rfl
  | xorb b => exact decode_of_op_xorb v rfl
  | msg => exact decode_of_op_msg v rfl

/-- The decoder reads no line that the variant does not have. -/
@[simp] theorem decode_wires (v : Variant) (p : Ports) : decode v (p.wires v) = decode v p := by
  simp only [decode, Ports.wires, keyLines_keyLines, key2Lines_key2Lines]

theorem wellFormed_of_decode_ok {v : Variant} {p : Ports} {i : Instr} (h : decode v p = .ok i) :
    WellFormed v i = true := by
  obtain ⟨_, rfl⟩ | ⟨_, rfl⟩ | ⟨_, rfl⟩ | ⟨_, rfl⟩ | ⟨_, rfl⟩ := decode_ok_cases h
  · rfl
  · exact wellFormed_init_iff.mpr
      ⟨keyFits_keyLines v p.key0, keyFits_keyLines v p.key1, key2Fits_key2Lines v p.key2⟩
  · rfl
  · rfl
  · rfl

theorem encode_op_of_decode_ok {v : Variant} {p : Ports} {i : Instr} (h : decode v p = .ok i) :
    (encode i).op = p.op := by
  obtain ⟨hop, rfl⟩ | ⟨hop, rfl⟩ | ⟨hop, rfl⟩ | ⟨hop, rfl⟩ | ⟨hop, rfl⟩ := decode_ok_cases h <;>
    exact hop.symm

/-- Settles O4: row by row of the opcode map; `INIT` carries what the lines of its key ports carry, which fits them. -/
theorem decodedIsWellFormed : Obligations.DecodedIsWellFormed := fun v p _ h =>
  ⟨wellFormed_of_decode_ok h, encode_op_of_decode_ok h, (decode_wires v p).trans h⟩

end Sys2Proof
end

section
/-! Operand assembly and reserved opcodes (R73, R74), one edge of the command port, and commands that take many edges
(R71, R235, R238). -/

namespace Sys2Proof.Machine

open Sys2Proof.SpecText

/-! ### Key words on the ports (R70, R73) -/

theorem keyLines_narrow (k : BitVec 32) : keyLines .n16 k = k &&& 0xFFFF#32 := by
  apply BitVec.eq_of_toNat_eq
  have hmask : (k &&& 0xFFFF#32).toNat = k.toNat % 2 ^ 16 :=
    (BitVec.toNat_and k _).trans (Nat.and_two_pow_sub_one_eq_mod k.toNat 16)
  simp only [hmask, keyLines, BitVec.toNat_setWidth, Variant.width]
  omega

theorem keyLines_wide (k : BitVec 32) : keyLines .w32 k = k := by
  simp [keyLines]

theorem keyWord_keyLines (v : Variant) (k : BitVec 32) : keyWord v (keyLines v k) = keyWord v k := by
  rw [keyWord, keyLines, BitVec.setWidth_setWidth_of_le _ (width_le v), BitVec.setWidth_eq, keyWord]

section InitKeys

variable {v : Variant} (r : Regs v)

/-- The `N16` key schedule reads `key0` and `key1` alone, and of them the lines the ports have. -/
theorem command_init_narrow_congr (hv : v = .n16) {k0 k1 k0' k1' : BitVec 32} (k2 k2' : BitVec 32)
    (h0 : keyWord v k0 = keyWord v k0') (h1 : keyWord v k1 = keyWord v k1') :
    r.command (.init k0 k1 k2) = r.command (.init k0' k1' k2') := by
  subst hv
  simp only [Regs.command, Regs.loadKey, keyR1, keyR2, h0, h1]

/-- `INIT` with what the port lines carry loads the key that is presented. -/
theorem command_init_keyLines (k0 k1 k2 : BitVec 32) :
    r.command (.init (keyLines v k0) (keyLines v k1) (key2Lines v k2)) = r.command (.init k0 k1 k2) := by
  cases v with
  | n16 => exact command_init_narrow_congr r rfl _ _ (keyWord_keyLines .n16 k0) (keyWord_keyLines .n16 k1)
  | w32 => rw [keyLines_wide, keyLines_wide]; rfl

theorem command_init_narrow_words (hv : v = .n16) (k0 k1 k2 : BitVec 32) :
    (r.command (.init k0 k1 k2)).l[0].toNat = k0.toNat % 2 ^ 16 ∧
      (r.command (.init k0 k1 k2)).r2.toNat = k1.toNat % 2 ^ 16 := by
  subst hv
  simp [Regs.command, Regs.loadKey, keyL, keyR2, keyWord, narrowL, Variant.width]

theorem command_init_wide_words (hv : v = .w32) (k0 k1 k2 : BitVec 32) :
    (r.command (.init k0 k1 k2)).l[0].toNat = k0.toNat ∧ (r.command (.init k0 k1 k2)).r1.toNat = k1.toNat ∧
      (r.command (.init k0 k1 k2)).r2.toNat = k2.toNat := by
  subst hv
  simp [Regs.command, Regs.loadKey, keyL, keyR1, keyR2, keyWord, wideL]

end InitKeys

/-- Settles O21: the two commands load the same key. -/
theorem narrowIgnoresAbsentKeyLines : Obligations.NarrowIgnoresAbsentKeyLines := by
  intro s k0 k1 k2 k0' k1' k2' hv h0 h1
  have hlines {k k' : BitVec 32} (h : k.setWidth 16 = k'.setWidth 16) :
      keyWord s.variant k = keyWord s.variant k' := by rw [hv]; exact h
  rw [exec_eq_next, exec_eq_next, command_init_narrow_congr s.regs hv k2 k2' (hlines h0) (hlines h1)]

/-! ### What an accepted command does, by its opcode (R73, R74, R77) -/

section Accept

variable {v : Variant} (r : Regs v) {p : Ports}

theorem accept_of_decode_ok {i : Instr} (h : decode v p = .ok i) : r.accept p = r.command i := by
  simp only [Regs.accept, h]

theorem accept_of_isReserved (h : IsReserved p.op) : r.accept p = r.raise .illegalOp := by
  simp only [Regs.accept, decode_of_isReserved v h]

theorem accept_of_op_init (h : p.op = 0b001#3) : r.accept p = r.command (.init p.key0 p.key1 p.key2) :=
  (accept_of_decode_ok r (decode_of_op_init v h)).trans (command_init_keyLines r p.key0 p.key1 p.key2)

@[simp] theorem accept_wires (p : Ports) : r.accept (p.wires v) = r.accept p := by
  simp only [Regs.accept, decode_wires]

theorem raise_eq_errorAction (c : ErrCause) : r.raise c = errorAction r c := by
  cases herr : r.err <;> simp [Regs.raise, errorAction, herr]

end Accept

/-- Settles O5: an accepted `INIT` loads the key on the ports, `XORB` is decoded with `din`, and the rows of the other
opcodes name no port. -/
theorem operandAssembly : Obligations.OperandAssembly := by
  refine ⟨fun s p hop => ⟨_, runPorts_eq_next p s, ?_⟩, fun p hop => ⟨?_, ?_⟩, fun v p => decode_of_op_xorb v, ?_⟩
  · rw [accept_of_op_init s.regs hop]
    exact ⟨fun hv => command_init_narrow_words s.regs hv _ _ _, fun hv => command_init_wide_words s.regs hv _ _ _⟩
  · rw [decode_of_op_init .n16 hop, keyLines_narrow, keyLines_narrow]; rfl
  · rw [decode_of_op_init .w32 hop, keyLines_wide, keyLines_wide]; rfl
  · intro v p q hpq hinit hxorb
    obtain hop | hop | hop | hop | hop | hop := op_cases p.op
    · rw [decode_of_op_nop v hop, decode_of_op_nop v (hpq ▸ hop)]
    · exact absurd hop hinit
    · rw [decode_of_op_gen v hop, decode_of_op_gen v (hpq ▸ hop)]
    · exact absurd hop hxorb
    · rw [decode_of_op_msg v hop, decode_of_op_msg v (hpq ▸ hop)]
    · rw [decode_of_isReserved v hop, decode_of_isReserved v (hpq ▸ hop), hpq]

theorem runPorts_of_isReserved {p : Ports} (h : IsReserved p.op) (s : State) :
    runPorts p s = .next (s.setRegs (errorAction s.regs .illegalOp)) := by
  rw [runPorts_eq_next, accept_of_isReserved s.regs h, raise_eq_errorAction]

/-- Settles O6: a reserved opcode does the error action alone, which sets `ERR`. -/
theorem reservedOpcodesRaiseIllegalOp : Obligations.ReservedOpcodesRaiseIllegalOp := by
  intro s p hop
  refine ⟨runPorts_of_isReserved hop s, fun t ht => ?_⟩
  rw [runPorts_of_isReserved hop] at ht
  cases ht
  rfl

/-- Settles O2: row by row of the opcode map; in a state with no error recorded the error action records its cause. -/
theorem decodeFollowsOpcodeMap : Obligations.DecodeFollowsOpcodeMap := by
  intro v p
  refine ⟨decode_of_op_nop v, fun hop => ⟨_, _, _, decode_of_op_init v hop⟩, decode_of_op_gen v,
    fun hop => ⟨_, decode_of_op_xorb v hop⟩, decode_of_op_msg v, fun hop => ⟨decode_of_isReserved v hop, ?_⟩⟩
  intro s _ herr
  exact ⟨_, runPorts_of_isReserved hop s, if_pos herr⟩

/-! ### One edge of the command port (R71, R234) -/

section Edges

variable {s : State}

theorem edgeNow_of_edges_cons {e : Edge} {rest : List Edge} (h : s.edges = e :: rest) : s.edgeNow = e := by
  simp only [State.edgeNow, h]

/-- A host that offers nothing new over a waiting offer keeps its duty. -/
theorem hostBreaksDuty_eq_false (h : s.waiting = none ∨ s.waiting = s.offer) : s.hostBreaksDuty = false := by
  unfold State.hostBreaksDuty
  obtain h | h := h
  · simp only [h]
  · cases ho : s.offer <;> simp [h, ho]

theorem step_of_busy {p : Ports} (hduty : s.hostBreaksDuty = false) (hrst : s.edgeNow.rst = false)
    (hphase : s.phase = .busy p) : step s = s.busyEdge p := by
  simp [step, hduty, hrst, hphase]

theorem step_of_ready (hduty : s.hostBreaksDuty = false) (hrst : s.edgeNow.rst = false)
    (hphase : s.phase = .ready) : step s = s.readyEdge := by
  simp [step, hduty, hrst, hphase]

theorem busyEdge_of_done (p : Ports) (hdone : s.edgeNow.done = true) :
    s.busyEdge p = runPorts p (s.pastEdge .ready s.offer) :=
  if_pos hdone

theorem busyEdge_of_not_done (p : Ports) (hdone : s.edgeNow.done = false) :
    s.busyEdge p = .next (s.pastEdge (.busy p) s.offer) :=
  if_neg (by simp [hdone])

theorem readyEdge_of_done {p : Ports} (hoffer : s.offer = some p) (hdone : s.edgeNow.done = true) :
    s.readyEdge = runPorts p (s.pastEdge .ready none) := by
  simp [State.readyEdge, hoffer, hdone]

theorem readyEdge_of_not_done {p : Ports} (hoffer : s.offer = some p) (hdone : s.edgeNow.done = false) :
    s.readyEdge = .next (s.pastEdge (.busy p) none) := by
  simp [State.readyEdge, hoffer, hdone]

/-- Past an edge that does not move the port on, the standing of the port is the same. -/
theorem pastEdge_same_phase {ph : Phase} (h : s.phase = ph) (w : Option Ports) :
    s.pastEdge ph w = { s with edges := s.edges.tail, waiting := w } := by
  subst h; rfl

end Edges

/-- Settles O44: `cmd_ready` needs a ready port, and the two cases are those of a busy edge. -/
theorem busyCoreAcceptsNothing : Obligations.BusyCoreAcceptsNothing := by
  intro s p hphase hduty hrst
  have hnot : s.phase ≠ .ready := by simp [hphase]
  have hready : s.cmdReady = false :=
    Bool.eq_false_iff.mpr fun h => hnot ((cmdReady_eq_true_iff s).mp h).1
  refine ⟨hready, accepts_of_not_ready hnot, fun hdone => ?_, fun hdone => ?_⟩
  · rw [step_of_busy hduty hrst hphase, busyEdge_of_not_done p hdone, pastEdge_same_phase hphase]
  · rw [step_of_busy hduty hrst hphase, busyEdge_of_done p hdone]; rfl

/-! ### An offer at a ready core (R71) -/

/-- A ready core whose coming edge is `e`, without reset, and carries an offer: a new one, or the one that waits. -/
structure OfferedAt (s : State) (e : Edge) (rest : List Edge) : Prop where
  ready : s.phase = .ready
  held  : s.waiting = none ∨ s.waiting = some (e.ports.wires s.variant)
  edges : s.edges = e :: rest
  rst   : e.rst = false
  valid : e.valid = true

namespace OfferedAt

variable {s : State} {e : Edge} {rest : List Edge}

theorem edgeNow (h : OfferedAt s e rest) : s.edgeNow = e := edgeNow_of_edges_cons h.edges

theorem offer (h : OfferedAt s e rest) : s.offer = some (e.ports.wires s.variant) := by
  rw [State.offer, h.edgeNow, if_pos h.valid]

theorem step_eq_readyEdge (h : OfferedAt s e rest) : step s = s.readyEdge :=
  step_of_ready (hostBreaksDuty_eq_false (h.offer ▸ h.held)) (h.edgeNow ▸ h.rst) h.ready

/-- The offer is accepted and completes at once. -/
theorem step_of_done (h : OfferedAt s e rest) (hdone : e.done = true) :
    step s = .next { s with edges := rest, waiting := none, regs := s.regs.accept e.ports } := by
  rw [h.step_eq_readyEdge, readyEdge_of_done h.offer (h.edgeNow ▸ hdone), runPorts_eq_next,
    pastEdge_same_phase h.ready, h.edges]
  exact congrArg (fun r => Host.Outcome.next { s with edges := rest, waiting := none, regs := r })
    (accept_wires s.regs e.ports)

/-- The offer is accepted and is in progress after the edge. -/
theorem step_of_not_done (h : OfferedAt s e rest) (hdone : e.done = false) :
    step s = .next { s with phase := .busy (e.ports.wires s.variant), edges := rest, waiting := none } := by
  rw [h.step_eq_readyEdge, readyEdge_of_not_done h.offer (h.edgeNow ▸ hdone)]
  simp only [State.pastEdge, h.edges, List.tail_cons]

end OfferedAt

/-- Settles O41: the edge runs what the ports decode to. -/
theorem stepRunsDecodedCommand : Obligations.StepRunsDecodedCommand := by
  intro s e rest i hready hheld hedges hrst hvalid hdone hdecode
  have hoffered : OfferedAt s e rest := ⟨hready, hheld, hedges, hrst, hvalid⟩
  rw [hoffered.step_of_done hdone, accept_of_decode_ok s.regs hdecode, exec_eq_next]; rfl

/-- Settles O42: the same edge with an opcode that decodes to no command. -/
theorem stepTakesIllegalOp : Obligations.StepTakesIllegalOp := by
  intro s e rest hready hheld hedges hrst hvalid hdone hop
  have hoffered : OfferedAt s e rest := ⟨hready, hheld, hedges, hrst, hvalid⟩
  rw [hoffered.step_of_done hdone, accept_of_isReserved s.regs hop, raise_eq_errorAction]

/-! ### A command that takes many edges (R71, R238) -/

/-- What the host offers at an edge of a core of variant `v`; `offer_eq_offered` ties it to `State.offer`. -/
def Edge.offered (v : Variant) (e : Edge) : Option Ports := if e.valid then some (e.ports.wires v) else none

theorem offer_eq_offered {s : State} {e : Edge} {rest : List Edge} (h : s.edges = e :: rest) :
    s.offer = e.offered s.variant := by
  rw [State.offer, edgeNow_of_edges_cons h, Edge.offered]

theorem runEdges_succ_of_step {s t : State} (h : step s = .next t) (n : Nat) :
    runEdges (n + 1) s = runEdges n t := by
  simp only [runEdges, h]

/-- A command in progress over edges at which the host offers `w` throughout: it takes effect at the last one. -/
theorem runEdges_of_busy {s : State} {p : Ports} {w : Option Ports} {waits : List Edge} {last : Edge}
    {rest : List Edge} (hphase : s.phase = .busy p) (hheld : s.waiting = none ∨ s.waiting = w)
    (hedges : s.edges = waits ++ last :: rest)
    (hwaits : ∀ x ∈ waits, x.rst = false ∧ x.done = false) (hrst : last.rst = false) (hdone : last.done = true)
    (hoffers : ∀ x ∈ waits ++ [last], x.offered s.variant = w) :
    runEdges (waits.length + 1) s =
      .next { s with phase := .ready, regs := s.regs.accept p, edges := rest, waiting := w } := by
  induction waits generalizing s with
  | nil =>
    have hnow : s.edgeNow = last := edgeNow_of_edges_cons hedges
    have hoffer : s.offer = w := (offer_eq_offered hedges).trans (hoffers last (by simp))
    have hstep : step s = .next ((s.pastEdge .ready w).setRegs (s.regs.accept p)) := by
      rw [step_of_busy (hostBreaksDuty_eq_false (hoffer ▸ hheld)) (hnow ▸ hrst) hphase,
        busyEdge_of_done p (hnow ▸ hdone), runPorts_eq_next, hoffer]; rfl
    rw [List.length_nil, runEdges_succ_of_step hstep]
    simp only [runEdges, State.setRegs, State.pastEdge, hedges, List.nil_append, List.tail_cons]
  | cons x waits ih =>
    obtain ⟨hxrst, hxdone⟩ := hwaits x (by simp)
    have hnow : s.edgeNow = x := edgeNow_of_edges_cons hedges
    have hoffer : s.offer = w := (offer_eq_offered hedges).trans (hoffers x (by simp))
    have hstep : step s = .next (s.pastEdge (.busy p) w) := by
      rw [step_of_busy (hostBreaksDuty_eq_false (hoffer ▸ hheld)) (hnow ▸ hxrst) hphase,
        busyEdge_of_not_done p (hnow ▸ hxdone), hoffer]
    rw [List.length_cons, runEdges_succ_of_step hstep]
    exact ih rfl (.inr rfl) (congrArg List.tail hedges) (fun y hy => hwaits y (.tail x hy))
      (fun y hy => hoffers y (.tail x hy))

/-- Settles O46: either way the registers are those the accepted command leaves. -/
theorem latencyChangesNothing : Obligations.LatencyChangesNothing := by
  intro s e last waits rest w hready hheld hedges hrst hvalid hdone hlrst hldone hwaits hoffers
  have hlater : OfferedAt s e (waits ++ last :: rest) := ⟨hready, hheld, hedges, hrst, hvalid⟩
  have hatOnce : OfferedAt { s with edges := { e with done := true } :: rest } { e with done := true } rest :=
    ⟨hready, hheld, rfl, hrst, hvalid⟩
  refine ⟨s.regs.accept e.ports, ?_, hatOnce.step_of_done rfl⟩
  have hbusy := runEdges_of_busy
    (s := { s with phase := .busy (e.ports.wires s.variant), edges := waits ++ last :: rest, waiting := none })
    rfl (.inl rfl) rfl hwaits hlrst hldone hoffers
  rw [runEdges_succ_of_step (hlater.step_of_not_done hdone), hbusy, accept_wires, hready]

end Sys2Proof.Machine
end

section
/-! The commands of an assembled program (R78, R79, R213). -/

namespace Sys2Proof.Machine

open Sys2Proof.SpecText

/-- What every value of `f` satisfies, every element of a list mapped by `f` satisfies. -/
theorem forall_mem_of_mapM_eq_some {α β : Type} {f : α → Option β} {P : β → Prop}
    (hf : ∀ a b, f a = some b → P b) {as : List α} {bs : List β} (h : as.mapM f = some bs) :
    ∀ b ∈ bs, P b := by
  induction as generalizing bs with
  | nil =>
    cases h
    exact nofun
  | cons a as ih =>
    simp only [List.mapM_cons, Option.bind_eq_bind, Option.bind_eq_some_iff] at h
    obtain ⟨b, hb, bs', hbs', ⟨⟩⟩ := h
    exact List.forall_mem_cons.mpr ⟨hf a b hb, ih hbs'⟩

/-- Every command of the list is one a core of variant `v` can be given. -/
def AllWellFormed (v : Variant) (is : List Instr) : Prop := ∀ i ∈ is, WellFormed v i = true

section WellFormedPrograms

variable {v : Variant}

theorem allWellFormed_of_no_init {is : List Instr} (h : ∀ i ∈ is, ¬ IsInit i) : AllWellFormed v is :=
  fun i hi => wellFormed_of_not_isInit (h i hi)

theorem encryptCommands_no_init (bs : List Byte) : ∀ i ∈ encryptCommands bs, ¬ IsInit i := by
  simp [encryptCommands, IsInit]

theorem genCommands_no_init (n : Nat) : ∀ i ∈ genCommands n, ¬ IsInit i := by
  simp [genCommands, IsInit]

theorem keyFits_of_keyOf {cs : List Char} {k : BitVec 32} (h : keyOf v cs = some k) : keyFits v k = true := by
  obtain ⟨n, _, hn⟩ := Option.bind_eq_some_iff.mp h
  obtain ⟨hlt, hk⟩ := Option.ite_none_right_eq_some.mp hn
  obtain rfl : BitVec.ofNat 32 n = k := Option.some.inj hk
  exact decide_eq_true ((BitVec.toNat_ofNat n 32 ▸ Nat.mod_le n _).trans_lt hlt)

theorem wellFormed_of_initOf {ops : List (List Char)} {i : Instr} (h : initOf v ops = some i) :
    WellFormed v i = true := by
  unfold initOf at h
  split at h
  next k0 k1 hkeys =>
    cases h
    have hfits := forall_mem_of_mapM_eq_some (fun _ _ => keyFits_of_keyOf) hkeys
    exact wellFormed_init_iff.mpr ⟨hfits k0 (by simp), hfits k1 (by simp), rfl⟩
  next k0 k1 k2 hkeys =>
    cases h
    have hfits := forall_mem_of_mapM_eq_some (fun _ _ => keyFits_of_keyOf) hkeys
    exact wellFormed_init_iff.mpr ⟨hfits k0 (by simp), hfits k1 (by simp), rfl⟩
  next => cases h

/-- A line gives the command `INIT` with the key words read for the variant, or commands with no key word. -/
theorem lineCommands_allWellFormed {word : List Char} {ops : List (List Char)} {is : List Instr}
    (h : lineCommands v word ops = some is) : AllWellFormed v is := by
  unfold lineCommands at h
  split_ifs at h
  · cases h; exact nofun
  · cases h; exact allWellFormed_of_no_init (by simp [IsInit])
  · obtain ⟨i, hi, rfl⟩ := Option.map_eq_some_iff.mp h
    exact List.forall_mem_singleton.mpr (wellFormed_of_initOf hi)
  · cases h; exact allWellFormed_of_no_init (by simp [IsInit])
  · split at h
    · cases h; exact allWellFormed_of_no_init (by simp [IsInit])
    · cases h
  · cases h; exact allWellFormed_of_no_init (by simp [IsInit])
  · obtain ⟨bs, _, rfl⟩ := Option.map_eq_some_iff.mp h
    exact allWellFormed_of_no_init (encryptCommands_no_init bs)
  · split at h
    next n _ => cases h; exact allWellFormed_of_no_init (genCommands_no_init n)
    next => cases h

theorem assembleLines_allWellFormed {lines : List (List Char)} {is : List Instr}
    (h : assembleLines v lines = some is) : AllWellFormed v is := by
  obtain ⟨iss, hlines, rfl⟩ := Option.map_eq_some_iff.mp h
  have hall : ∀ is ∈ iss, AllWellFormed v is :=
    forall_mem_of_mapM_eq_some (fun _ _ => lineCommands_allWellFormed) hlines
  intro i hi
  obtain ⟨is, his, hi⟩ := List.mem_flatten.mp hi
  exact hall is his i hi

end WellFormedPrograms

/-- Settles O52: line by line; only `INIT` and `KEY` carry key words, and those are read below `2^W`. -/
theorem assembledProgramsAreWellFormed : Obligations.AssembledProgramsAreWellFormed := by
  intro lines v is h
  unfold assemble at h
  split at h
  next => cases h
  next line rest =>
    obtain ⟨w, _, hrest⟩ := Option.bind_eq_some_iff.mp h
    obtain ⟨js, hjs, ⟨⟩⟩ := Option.map_eq_some_iff.mp hrest
    exact assembleLines_allWellFormed hjs

end Sys2Proof.Machine
end

section
/-! The field GF(2^8), the S-box and word substitution (R100 to R108). -/

namespace Sys2Proof.Machine

/-! ### The product of GF(2^8) (R100) -/

@[simp] theorem xtime_zero : xtime 0#8 = 0#8 := by decide

theorem xtime_xor (a b : Byte) : xtime (a ^^^ b) = xtime a ^^^ xtime b := by
  have hreduce : (if (a ^^^ b).getLsbD 7 then 0x1B#8 else 0x00#8) =
      (if a.getLsbD 7 then 0x1B#8 else 0x00#8) ^^^ (if b.getLsbD 7 then 0x1B#8 else 0x00#8) := by
    rw [BitVec.getLsbD_xor]
    cases a.getLsbD 7 <;> cases b.getLsbD 7 <;> rfl
  unfold xtime
  rw [hreduce, BitVec.shiftLeft_xor_distrib]
  ac_rfl

@[simp] theorem gmulBits_zero_left (n : Nat) (b : Byte) : gmulBits n 0#8 b = 0#8 := by
  induction n generalizing b with
  | zero => rfl
  | succ n ih => simp [gmulBits, ih]

theorem gmulBits_xor_left (n : Nat) (a a' b : Byte) :
    gmulBits n (a ^^^ a') b = gmulBits n a b ^^^ gmulBits n a' b := by
  induction n generalizing a a' b with
  | zero => simp [gmulBits]
  | succ n ih =>
    simp only [gmulBits, xtime_xor, ih]
    split
    · ac_rfl
    · simp

theorem gmulBits_xtime_left (n : Nat) (a b : Byte) : gmulBits n (xtime a) b = xtime (gmulBits n a b) := by
  induction n generalizing a b with
  | zero => simp [gmulBits]
  | succ n ih =>
    simp only [gmulBits, xtime_xor, ih]
    split <;> simp

/-- The factor `a` moves into the sum over the bits of `b`, because the product is linear in its left factor. -/
theorem gmul_gmulBits (n : Nat) (x b a : Byte) : gmul (gmulBits n x b) a = gmulBits n (gmul x a) b := by
  induction n generalizing x b with
  | zero => exact gmulBits_zero_left 8 a
  | succ n ih =>
    have hxor (y z : Byte) : gmul (y ^^^ z) a = gmul y a ^^^ gmul z a := gmulBits_xor_left 8 y z a
    have hxtime : gmul (xtime x) a = xtime (gmul x a) := gmulBits_xtime_left 8 x a
    rw [gmulBits, hxor, ih, hxtime, gmulBits]
    split
    · rfl
    · exact congrArg (· ^^^ _) (gmulBits_zero_left 8 a)

theorem gmul_right_comm (x b a : Byte) : gmul (gmul x b) a = gmul (gmul x a) b := gmul_gmulBits 8 x b a

theorem zero_gmul (b : Byte) : gmul 0 b = 0 := gmulBits_zero_left 8 b

theorem one_gmul : ∀ b : Byte, gmul 1 b = b := by decide +kernel

theorem gmul_comm (a b : Byte) : gmul a b = gmul b a := by
  simpa only [one_gmul] using gmul_right_comm 1 a b

theorem gmul_assoc (a b c : Byte) : gmul (gmul a b) c = gmul a (gmul b c) := by
  rw [gmul_comm a b, gmul_right_comm, gmul_comm]

/-- Two inverses of one byte agree: `c' = (a * c) * c' = (a * c') * c = c`. -/
theorem gmul_eq_one_right_unique {a c c' : Byte} (h : gmul a c = 1) (h' : gmul a c' = 1) : c' = c := by
  rw [← one_gmul c', ← h, gmul_right_comm, h', one_gmul]

theorem ne_zero_of_gmul_eq_one {a c : Byte} (h : gmul a c = 1) : a ≠ 0 := by
  rintro rfl
  rw [zero_gmul] at h
  exact absurd h (by decide)

/-! ### The affine transform (R102) and the ROM (R104, R105) -/

/-- The inverse of `affine`, as `affine_affineInv` says. -/
def affineInv (y : Byte) : Byte := y.rotateLeft 1 ^^^ y.rotateLeft 3 ^^^ y.rotateLeft 6 ^^^ 0x05#8

theorem affine_affineInv : ∀ y : Byte, affine (affineInv y) = y := by decide +kernel

theorem affine_injective : Function.Injective affine :=
  Finite.injective_iff_surjective.mpr (Function.RightInverse.surjective affine_affineInv)

theorem sbox_zero : sbox 0 = affine 0 := by decide

/-- The one check of the ROM entry by entry: each entry but entry 0 holds the inverse of its index, under `affine`. -/
theorem gmul_affineInv_sbox : ∀ x : Byte, x ≠ 0 → gmul x (affineInv (sbox x)) = 1 := by decide +kernel

theorem sbox_eq_affine_inverse {x : Byte} (hx : x ≠ 0) : ∃ c, gmul x c = 1 ∧ sbox x = affine c :=
  ⟨_, gmul_affineInv_sbox x hx, (affine_affineInv _).symm⟩

theorem sbox_of_gmul_eq_one {x c : Byte} (h : gmul x c = 1) : sbox x = affine c := by
  obtain ⟨d, hd, hs⟩ := sbox_eq_affine_inverse (ne_zero_of_gmul_eq_one h)
  rw [hs, gmul_eq_one_right_unique h hd]

/-! ### The inverse (R101) -/

theorem gfInv_of_gmul_eq_one {a c : Byte} (h : gmul a c = 1) : gfInv a = some c := by
  have hmem : c ∈ (List.range 256).map (BitVec.ofNat 8) :=
    List.mem_map.mpr ⟨c.toNat, List.mem_range.mpr c.isLt, BitVec.ofNat_toNat 8 c ▸ BitVec.setWidth_eq c⟩
  obtain ⟨d, hd⟩ : ∃ d, gfInv a = some d :=
    Option.isSome_iff_exists.mp (List.find?_isSome.mpr ⟨c, hmem, beq_iff_eq.mpr h⟩)
  have hone : gmul a d = 1 := beq_iff_eq.mp (List.find?_some (p := (gmul a · == 1)) hd)
  rw [hd, gmul_eq_one_right_unique h hone]

/-- Settles O8: the search cannot succeed at 0, and at a nonzero byte it can find nothing but the byte whose affine
transform the ROM holds. -/
theorem fieldInverseUnique : Obligations.FieldInverseUnique := by
  refine ⟨List.find?_eq_none.mpr fun c _ => ?_, fun a ha => ?_⟩
  · rw [zero_gmul]; decide
  · obtain ⟨c, hc, -⟩ := sbox_eq_affine_inverse ha
    exact ⟨c, gfInv_of_gmul_eq_one hc, fun c' => ⟨gmul_eq_one_right_unique hc, fun h => h ▸ hc⟩⟩

/-! ### The S-box as a function on bytes (R106) -/

/-- A nonzero byte has a nonzero inverse, and `affine` is injective. -/
theorem eq_zero_of_sbox_eq_sbox_zero {x : Byte} (h : sbox x = sbox 0) : x = 0 := by
  by_contra hx
  obtain ⟨c, hc, hs⟩ := sbox_eq_affine_inverse hx
  have hzero : c = 0 := affine_injective (hs.symm.trans (h.trans sbox_zero))
  exact ne_zero_of_gmul_eq_one (gmul_comm x c ▸ hc) hzero

theorem sbox_injective : Function.Injective sbox := by
  intro x y hxy
  obtain rfl | hx := eq_or_ne x 0
  · exact (eq_zero_of_sbox_eq_sbox_zero hxy.symm).symm
  obtain rfl | hy := eq_or_ne y 0
  · exact eq_zero_of_sbox_eq_sbox_zero hxy
  obtain ⟨c, hc, hxs⟩ := sbox_eq_affine_inverse hx
  obtain ⟨d, hd, hys⟩ := sbox_eq_affine_inverse hy
  obtain rfl : c = d := affine_injective (hxs.symm.trans (hxy.trans hys))
  rw [gmul_comm] at hc hd
  exact gmul_eq_one_right_unique hd hc

theorem sbox_bijective : Function.Bijective sbox := sbox_injective.bijective_of_finite

theorem gmul_affine_ne_one : ∀ c : Byte, gmul (affine c) c ≠ 1 := by decide +kernel

/-- A fixed point other than 0 would be both `affine c` and the inverse of `c`. -/
theorem sbox_ne_self (b : Byte) : sbox b ≠ b := by
  obtain rfl | hb := eq_or_ne b 0
  · decide
  · obtain ⟨c, hc, hs⟩ := sbox_eq_affine_inverse hb
    intro hfix
    exact gmul_affine_ne_one c (hs ▸ hfix.symm ▸ hc)

/-- Settles O7: the S-box is injective on a finite type, and the listed entries are read off the ROM. -/
theorem sboxBijectionWithoutFixedPoint : Obligations.SboxBijectionWithoutFixedPoint :=
  ⟨sbox_bijective, sbox_ne_self, by decide⟩

/-- Settles O9: entry 0 is set directly, the others hold the transform of the inverse. -/
theorem sboxIsAffineOfInverse : Obligations.SboxIsAffineOfInverse :=
  ⟨by decide, by decide, sbox_bijective, fun _ => sbox_eq_affine_inverse⟩

/-! ### The construction loop (R103)

A turn multiplies `p` by 3 and divides `q` by 3, so `q` stays the inverse of `p`. The powers of 3 have period 255, so
the indexes `p` are all the nonzero bytes. -/

theorem pqNext_fst (pq : Byte × Byte) : (pqNext pq).1 = gmul pq.1 3 := by
  have h : ∀ p : Byte, (pqNext (p, 0)).1 = gmul p 3 := by decide +kernel
  exact h pq.1

theorem gmul_three_pqNext_snd (pq : Byte × Byte) : gmul 3 (pqNext pq).2 = pq.2 := by
  have h : ∀ q : Byte, gmul 3 (pqNext (0, q)).2 = q := by decide +kernel
  exact h pq.2

theorem gmul_pqNext (pq : Byte × Byte) : gmul (pqNext pq).1 (pqNext pq).2 = gmul pq.1 pq.2 := by
  rw [pqNext_fst, gmul_assoc, gmul_three_pqNext_snd]

theorem pqEntries_affine_inverse {n : Nat} {pq e : Byte × Byte} (hpq : gmul pq.1 pq.2 = 1)
    (he : e ∈ pqEntries n pq) : ∃ q, gmul e.1 q = 1 ∧ e.2 = affine q := by
  induction n generalizing pq with
  | zero => cases he
  | succ n ih =>
    have hnext : gmul (pqNext pq).1 (pqNext pq).2 = 1 := (gmul_pqNext pq).trans hpq
    obtain rfl | he := List.mem_cons.mp he
    · exact ⟨_, hnext, rfl⟩
    · exact ih hnext he

/-- The loop from its start: the (index, entry) pairs of R103, in order. -/
abbrev loopEntries : List (Byte × Byte) := pqEntries 255 (1, 1)

theorem loopEntries_affine_inverse {e : Byte × Byte} (he : e ∈ loopEntries) :
    ∃ q, gmul e.1 q = 1 ∧ e.2 = affine q :=
  pqEntries_affine_inverse (one_gmul 1) he

theorem loopEntries_sbox {e : Byte × Byte} (he : e ∈ loopEntries) : sbox e.1 = e.2 := by
  obtain ⟨q, hq, hentry⟩ := loopEntries_affine_inverse he
  rw [hentry, sbox_of_gmul_eq_one hq]

theorem pqEntries_indexes (n : Nat) (pq : Byte × Byte) :
    (pqEntries n pq).map Prod.fst = List.iterate (gmul · 3) (gmul pq.1 3) n := by
  induction n generalizing pq with
  | zero => rfl
  | succ n ih => rw [pqEntries, List.map_cons, ih, List.iterate, pqNext_fst]

/-- The period divides 255 = 3 * 5 * 17, and none of 255/3, 255/5, 255/17. -/
theorem minimalPeriod_gmul_three : Function.minimalPeriod (gmul · 3) 3 = 255 := by
  have hperiod : Function.IsPeriodicPt (gmul · 3) 255 3 := by decide +kernel
  have hfactor : ∀ k ∈ [85, 51, 15], ¬ Function.IsPeriodicPt (gmul · 3) k 3 := by decide +kernel
  have hdivisor : ∀ m ∈ Nat.divisors 255, m ≠ 255 → ∃ k ∈ [85, 51, 15], m ∣ k := by decide +kernel
  by_contra hne
  obtain ⟨k, hk, hdvd⟩ := hdivisor _ (Nat.mem_divisors.mpr ⟨hperiod.minimalPeriod_dvd, by decide⟩) hne
  exact hfactor k hk (Function.isPeriodicPt_iff_minimalPeriod_dvd.mpr hdvd)

theorem loopEntries_indexes_nodup : (loopEntries.map Prod.fst).Nodup := by
  rw [pqEntries_indexes, one_gmul, ← List.range_map_iterate]
  refine List.nodup_range.map_on fun i hi j hj hij => ?_
  refine Function.iterate_injOn_Iio_minimalPeriod ?_ ?_ hij
  · rw [minimalPeriod_gmul_three]; exact List.mem_range.mp hi
  · rw [minimalPeriod_gmul_three]; exact List.mem_range.mp hj

/-- 0 has no inverse, so it and the 255 different indexes are all the bytes there are. -/
theorem mem_loopEntries_indexes {x : Byte} (hx : x ≠ 0) : x ∈ loopEntries.map Prod.fst := by
  have hzero : 0 ∉ loopEntries.map Prod.fst := by
    intro h
    obtain ⟨e, he, hindex⟩ := List.mem_map.mp h
    obtain ⟨q, hq, -⟩ := loopEntries_affine_inverse he
    exact ne_zero_of_gmul_eq_one hq hindex
  have hnodup : (0 :: loopEntries.map Prod.fst).Nodup := List.nodup_cons.mpr ⟨hzero, loopEntries_indexes_nodup⟩
  have hall : (0 :: loopEntries.map Prod.fst).toFinset = Finset.univ :=
    Finset.eq_univ_of_card _ ((List.toFinset_card_of_nodup hnodup).trans (by decide +kernel))
  have hmem : x ∈ 0 :: loopEntries.map Prod.fst := List.mem_toFinset.mp (hall ▸ Finset.mem_univ x)
  exact (List.mem_cons.mp hmem).resolve_left hx

/-- Settles O10: an entry the table has is the ROM's, and the one it does not have is entry 0. -/
theorem constructionLoopBuildsSbox : Obligations.ConstructionLoopBuildsSbox := by
  refine ⟨fun x => ?_, loopEntries_indexes_nodup, by decide +kernel⟩
  cases hx : loopEntries.lookup x with
  | none =>
    obtain rfl : x = 0 := by
      by_contra hne
      obtain ⟨e, he, rfl⟩ := List.mem_map.mp (mem_loopEntries_indexes hne)
      exact absurd (List.lookup_eq_none_iff.mp hx e he) (by simp)
    decide
  | some y =>
    obtain ⟨_, _, hsplit, -⟩ := List.lookup_eq_some_iff.mp hx
    have hmem : (x, y) ∈ loopEntries := hsplit ▸ by simp
    exact loopEntries_sbox hmem

/-! ### Word substitution (R107, R108) -/

/-- Settles O12: `subWord` appends the substituted lanes, so a lane of it is what is left once the bytes below it are
dropped. -/
theorem substitutionWorksByLane : Obligations.SubstitutionWorksByLane := by
  intro v w j
  cases v with
  | n16 =>
    fin_cases j
    · exact BitVec.extractLsb'_append_eq_left
    · exact BitVec.extractLsb'_append_eq_right
  | w32 =>
    fin_cases j
    · exact (BitVec.extractLsb'_append_eq_of_le (by decide)).trans <|
        (BitVec.extractLsb'_append_eq_of_le (by decide)).trans BitVec.extractLsb'_append_eq_left
    · exact (BitVec.extractLsb'_append_eq_of_le (by decide)).trans <|
        (BitVec.extractLsb'_append_eq_of_le (by decide)).trans BitVec.extractLsb'_append_eq_right
    · exact (BitVec.extractLsb'_append_eq_of_le (by decide)).trans BitVec.extractLsb'_append_eq_right
    · exact BitVec.extractLsb'_append_eq_right

/-- Bit `i` of a word is bit `i % 8` of the lane `i / 8` from the bottom (R52). -/
theorem word_ext_laneByte {v : Variant} {w w' : Word v} (h : ∀ j, laneByte w j = laneByte w' j) : w = w' := by
  refine BitVec.eq_of_getLsbD_eq fun i hi => ?_
  have hw : v.width = 8 * v.bytes := width_eq_bytes v
  have hbit := congrArg (·.getLsbD (i % 8)) (h ⟨v.bytes - 1 - i / 8, by omega⟩)
  have hpos : v.width - 8 - 8 * (v.bytes - 1 - i / 8) + i % 8 = i := by omega
  simpa [laneByte, hpos, Nat.mod_lt] using hbit

theorem subWord_injective (v : Variant) : Function.Injective (subWord v) := by
  intro w w' h
  refine word_ext_laneByte fun j => sbox_injective ?_
  rw [← substitutionWorksByLane, ← substitutionWorksByLane, h]

/-- Settles O13: lanes determine a word, and the S-box is injective on each of them. -/
theorem substitutionIsBijective : Obligations.SubstitutionIsBijective :=
  fun v => (subWord_injective v).bijective_of_finite

end Sys2Proof.Machine
end

section
/-! The LFSR advance (R120 to R125). -/

namespace Sys2Proof.Machine

/-! ### The wide mixing transform (R122) -/

theorem rotateLeft_toNat {n k : Nat} (x : BitVec n) (hk : k < n) :
    (x.rotateLeft k).toNat = SpecText.rotl n x.toNat k := by
  rw [BitVec.toNat_rotateLeft, Nat.mod_eq_of_lt hk, Nat.shiftLeft_eq, Nat.shiftRight_eq_div_pow, SpecText.rotl]

theorem mix32_toNat (x : BitVec 32) : (mix32 x).toNat = SpecText.rotl 32 x.toNat 9 ^^^ x.toNat / 2 ^ 23 := by
  rw [mix32, BitVec.toNat_xor, rotateLeft_toNat x (by decide), BitVec.toNat_ushiftRight, Nat.shiftRight_eq_div_pow]

/-- The rotation brings `x >> 23` into bits 8..0, and the second term takes it out again. -/
theorem mix32_eq_shiftLeft (x : BitVec 32) : mix32 x = x <<< 9 := by
  refine BitVec.eq_of_getLsbD_eq fun i hi => ?_
  rw [mix32, BitVec.getLsbD_xor, BitVec.getLsbD_rotateLeft, BitVec.getLsbD_ushiftRight, BitVec.getLsbD_shiftLeft]
  by_cases h : i < 9
  · simp [h]
  · have habove : x.getLsbD (23 + i) = false := BitVec.getLsbD_of_ge x _ (by omega)
    simp [h, habove]

theorem mix32_xor (x y : BitVec 32) : mix32 (x ^^^ y) = mix32 x ^^^ mix32 y := by
  simp only [mix32_eq_shiftLeft, BitVec.shiftLeft_xor_distrib]

theorem mix32_toNat_mod (x : BitVec 32) : (mix32 x).toNat % 2 ^ 9 = 0 := by
  rw [mix32_eq_shiftLeft, BitVec.toNat_shiftLeft, Nat.shiftLeft_eq]
  omega

theorem mix32_eq_zero {x : BitVec 32} (h : x.toNat % 2 ^ 23 = 0) : mix32 x = 0#32 := by
  apply BitVec.eq_of_toNat_eq
  rw [mix32_eq_shiftLeft, BitVec.toNat_shiftLeft, Nat.shiftLeft_eq, BitVec.toNat_zero]
  omega

theorem mix32_not_injective : ¬ Function.Injective mix32 := by
  intro h
  have hcollide : mix32 0x80000000#32 = mix32 0#32 := by decide
  exact absurd (h hcollide) (by decide)

/-- Settles O14: linearity and the kernel follow from the shift; the kernel holds `0x80000000` beside 0. -/
theorem mixIsShiftByNine : Obligations.MixIsShiftByNine :=
  ⟨mix32_toNat, mix32_eq_shiftLeft, mix32_xor, fun _ => mix32_eq_zero, mix32_not_injective⟩

/-! ### The advance (R120, R121, R123 to R125) -/

section Advance

variable {v : Variant} (l : Vector (Word v) 16)

theorem lfsrAdvance_below_top {i : Nat} (hi : i < 15) : (lfsrAdvance l)[i] = l[i + 1] := by
  rw [lfsrAdvance_get l i (by omega), dif_pos hi]

theorem lfsrAdvance_top : (lfsrAdvance l)[15] = feedback v l := lfsrAdvance_get l 15 (by decide)

theorem feedback_toNat : (feedback v l).toNat = SpecText.feedback v fun i => l[i].toNat := by
  cases v with
  | n16 => simp only [feedback, BitVec.toNat_xor]; rfl
  | w32 => simp only [feedback, mix32_toNat, BitVec.toNat_xor]; rfl

theorem feedback_eq_zero (h : ∀ (i : Nat) (_ : i < 16), l[i] = 0) : feedback v l = 0 := by
  cases v with
  | n16 | w32 => simp only [feedback, h]; rfl

end Advance

/-- Settles O15: the feedback, word for word, is the formula on the words' values. -/
theorem lfsrAdvanceShiftsAndFeedsBack : Obligations.LfsrAdvanceShiftsAndFeedsBack :=
  fun _ l => ⟨fun _ => lfsrAdvance_below_top l, by rw [lfsrAdvance_top, feedback_toNat]⟩

/-- Settles O16: a word below the top takes a 0 from its neighbour, and the feedback of zeros is 0. -/
theorem zeroLfsrIsFixedPoint : Obligations.ZeroLfsrIsFixedPoint := by
  intro v l h
  refine Vector.ext fun i hi => ?_
  rw [lfsrAdvance_get l i hi, h i hi]
  split
  · exact h (i + 1) _
  · exact feedback_eq_zero l h

/-! ### Runs of `GEN` (R125) -/

/-- The fresh word of `W32` has bits 8..0 zero (R125). -/
theorem wide_feedback_mod (l : Vector (Word .w32) 16) : (feedback .w32 l).toNat % 2 ^ 9 = 0 := mix32_toNat_mod _

/-- One advance turns "the top `n` words have bits 8..0 zero" into the same of the top `n + 1`. -/
theorem wide_genCycles_mod (n : Nat) (r : Regs .w32) {i : Nat} (hi : i < 16) (htop : 16 ≤ i + n) :
    (r.genCycles n).l[i].toNat % 2 ^ 9 = 0 := by
  induction n generalizing i with
  | zero => omega
  | succ n ih =>
    simp only [← genCycle_genCycles, genCycle_l, lfsrAdvance_get _ i hi]
    split
    · exact ih _ (by omega)
    · exact wide_feedback_mod _

theorem runCommands_gen_cons {s : State} (hkeyed : s.regs.keyed = true) (rest : List Instr) :
    runCommands (.gen :: rest) s = runCommands rest (s.setRegs s.regs.genCycle) := by
  rw [runCommands, exec_eq_next, Regs.command, if_pos hkeyed]
  exact Option.map_id'

theorem runCommands_genCommands (n : Nat) {s : State} (hkeyed : s.regs.keyed = true) :
    runCommands (genCommands n) s = some ([], s.setRegs (s.regs.genCycles n)) := by
  induction n generalizing s with
  | zero => rfl
  | succ n ih =>
    rw [genCommands, List.replicate_succ, runCommands_gen_cons hkeyed]
    exact ih (by simpa using hkeyed)

/-- Settles O17: after 16 cycles every word of the LFSR has entered as a feedback word. -/
theorem wideLowBitsVanish : Obligations.WideLowBitsVanish := by
  rintro ⟨v, regs, _, _, _, _⟩ n rfl hkeyed hn
  exact ⟨regs.genCycles n, runCommands_genCommands n hkeyed, fun i hi => wide_genCycles_mod n regs hi (by omega)⟩

end Sys2Proof.Machine
end

section
/-! The FSM advance (R141 to R144). -/

namespace Sys2Proof.Machine

section Advance

variable {v : Variant} (top r1 r2 : Word v)

theorem fsmF_toNat : (fsmF top r1 r2).toNat = SpecText.fsmF v.width top.toNat r1.toNat r2.toNat := by
  rw [fsmF, BitVec.toNat_xor, BitVec.toNat_add, SpecText.fsmF]

/-- The sum `F + R2` that R142 rotates. -/
theorem fsmF_add_toNat : (fsmF top r1 r2 + r2).toNat =
    (SpecText.fsmF v.width top.toNat r1.toNat r2.toNat + r2.toNat) % 2 ^ v.width := by
  rw [BitVec.toNat_add, fsmF_toNat]

theorem seven_lt_width (v : Variant) : 7 < v.width := by cases v <;> decide

theorem fsmR1_toNat : (fsmR1 top r1 r2).toNat = SpecText.fsmR1 v.width top.toNat r1.toNat r2.toNat := by
  rw [fsmR1, BitVec.toNat_xor, rotateLeft_toNat _ (seven_lt_width v), fsmF_add_toNat, SpecText.fsmR1]

theorem zero_rotateLeft (n k : Nat) : (0#n).rotateLeft k = 0#n :=
  BitVec.eq_of_getLsbD_eq fun _ _ => by simp [BitVec.getLsbD_rotateLeft]

theorem fsmR1_eq_self (h : fsmF top r1 r2 + r2 = 0#v.width) : fsmR1 top r1 r2 = r1 := by
  rw [fsmR1, h, zero_rotateLeft, BitVec.xor_zero]

theorem laneByte_fsmR2 (j : Lane v) : laneByte (fsmR2 r1) j = sbox (laneByte r1 j) :=
  substitutionWorksByLane v r1 j

end Advance

/-- Settles O18: the words' operations are the formulas on their values, `R2'` is the substitution of the old `R1`, and
a sum of value 0 is the zero word, whose rotation changes no bit of `R1`. -/
theorem fsmAdvanceFormula : Obligations.FsmAdvanceFormula := by
  intro v top r1 r2
  refine ⟨fsmR1_toNat top r1 r2, laneByte_fsmR2 r1, fun h => fsmR1_eq_self top r1 r2 ?_⟩
  exact BitVec.eq_of_toNat_eq ((fsmF_add_toNat top r1 r2).trans h)

end Sys2Proof.Machine
end

section
/-! The commands (R160 to R169): the generation cycle and the key load, word for word, and what each command does. -/

namespace Sys2Proof.Machine

open Sys2Proof.SpecText

/-! ### The generation cycle (R160, R161) -/

section Cycle

variable {v : Variant} (r : Regs v)

theorem keystreamWord_toNat :
    r.keystreamWord.toNat = ((r.l[15].toNat + r.r1.toNat) % 2 ^ v.width) ^^^ r.r2.toNat ^^^ r.l[0].toNat := by
  rw [Regs.keystreamWord, BitVec.toNat_xor, BitVec.toNat_xor, BitVec.toNat_add]

theorem isCycle_genCycle : IsCycle r r.genCycle :=
  ⟨keystreamWord_toNat r, fsmR1_toNat r.l[15] r.r1 r.r2, laneByte_fsmR2 r.r1, fun _ => lfsrAdvance_below_top r.l,
    (congrArg BitVec.toNat (lfsrAdvance_top r.l)).trans (feedback_toNat r.l)⟩

/-- The byte consumer writes none of the words a cycle is about; only the word fetch does. -/
theorem isCycle_xorByte {q q' : Regs v} (h : IsCycle r q') (hfetch : q.fetchWord = q') (b : Byte) :
    IsCycle r (q.xorByte b) := by
  subst hfetch; exact h

end Cycle

/-! ### Several generation cycles (R161) -/

section Cycles

variable {v : Variant} (r : Regs v) (n : Nat)

@[simp] theorem genCycles_dout : (r.genCycles n).dout = r.dout := by
  induction n generalizing r with
  | zero => rfl
  | succ n ih => exact (ih r.genCycle).trans (genCycle_dout r)

@[simp] theorem genCycles_err : (r.genCycles n).err = r.err := by
  induction n generalizing r with
  | zero => rfl
  | succ n ih => exact (ih r.genCycle).trans (genCycle_err r)

@[simp] theorem genCycles_ecause : (r.genCycles n).ecause = r.ecause := by
  induction n generalizing r with
  | zero => rfl
  | succ n ih => exact (ih r.genCycle).trans (genCycle_ecause r)

/-- `KS` after `n + 1` cycles is the word of the state after `n`. -/
theorem genCycles_succ_ks : (r.genCycles (n + 1)).ks = r.keystream n := by
  rw [← genCycle_genCycles, genCycle_ks, Regs.keystream]

end Cycles

/-! ### Single commands (R165 to R169) -/

section Exec

variable {s : State}

theorem exec_gen_of_keyed (h : s.regs.keyed = true) : exec .gen s = .next (s.setRegs s.regs.genCycle) := if_pos h

theorem exec_xorb_of_keyed (h : s.regs.keyed = true) (b : Byte) :
    exec (.xorb b) s = .next (s.setRegs (s.regs.xorByte b)) := if_pos h

/-- The two commands that need a key take the error action without one (R201). -/
theorem exec_of_unkeyed {i : Instr} (hi : i = .gen ∨ IsXorb i) (h : s.regs.keyed = false) :
    exec i s = .next (s.setRegs (errorAction s.regs .notKeyed)) := by
  have hcommand : s.regs.command i = s.regs.raise .notKeyed := by
    obtain rfl | ⟨b, rfl⟩ := hi <;> simp [Regs.command, h]
  rw [exec_eq_next, hcommand, raise_eq_errorAction]

end Exec

/-- Settles O19: `NOP` leaves the registers, and no command changes anything else. -/
theorem nopLeavesStateUnchanged : Obligations.NopLeavesStateUnchanged := exec_eq_next .nop

/-- Settles O22: the cycle's words are the formulas of R160 and R161, and it writes no other register. -/
theorem genRunsOneCycle : Obligations.GenRunsOneCycle := by
  refine fun s => ⟨fun hkeyed => ?_, exec_of_unkeyed (.inl rfl)⟩
  exact ⟨_, exec_gen_of_keyed hkeyed, isCycle_genCycle s.regs, genCycle_lane _, genCycle_dout _, genCycle_keyed _,
    genCycle_err _, genCycle_ecause _, rfl, genCycle_doutWritten _⟩

/-- Settles O23: at lane 0 the word of the byte comes from a cycle, elsewhere it is in `KS` already. -/
theorem xorbConsumesOneByte : Obligations.XorbConsumesOneByte := by
  refine fun s b => ⟨fun hkeyed => ?_, exec_of_unkeyed (.inr ⟨b, rfl⟩)⟩
  refine ⟨_, exec_xorb_of_keyed hkeyed b, fun hlane => ?first, fun hlane => ?later, rfl, rfl, xorByte_keyed _ b,
    xorByte_err _ b, xorByte_ecause _ b, rfl⟩
  case first =>
    have hfetch : s.regs.fetchWord = s.regs.genCycle := fetchWord_first _ hlane
    exact ⟨isCycle_xorByte _ (isCycle_genCycle s.regs) hfetch b, congrArg Regs.ksWritten hfetch⟩
  case later =>
    have hfetch : s.regs.fetchWord = s.regs := fetchWord_later _ hlane
    simp [hfetch]

/-! ### The key load (R162 to R164, R166) -/

/-- The bit that R162 shifts to position 16 is truncated away. -/
theorem narrowNext_eq_shift (x : BitVec 16) : narrowNext x = x >>> 1 := by
  apply BitVec.eq_of_toNat_eq
  have hx : x.toNat < 2 ^ 16 := x.isLt
  rw [narrowNext, BitVec.toNat_ofNat, BitVec.toNat_ushiftRight, Nat.shiftLeft_eq, Nat.add_mul_mod_self_right,
    Nat.shiftRight_eq_div_pow]
  omega

theorem narrowL_toNat (k : BitVec 16) (i : Nat) : (narrowL k i).toNat = k.toNat / 2 ^ i := by
  induction i with
  | zero => simp [narrowL]
  | succ i ih =>
    rw [narrowL, narrowNext_eq_shift, BitVec.toNat_ushiftRight, ih, Nat.shiftRight_eq_div_pow, Nat.div_div_eq_div_mul,
      pow_one, Nat.pow_succ]

section InitSchedule

variable {v : Variant} (r : Regs v) (k0 k1 k2 : BitVec 32)

theorem command_init_narrow_l (hv : v = .n16) {i : Nat} (hi : i < 16) :
    (r.command (.init k0 k1 k2)).l[i].toNat = (narrowL (keyWord .n16 k0) i).toNat := by
  subst hv
  simp [Regs.command, Regs.loadKey, keyL]

theorem command_init_narrow_r1 (hv : v = .n16) :
    (r.command (.init k0 k1 k2)).r1.toNat = 0xFFFF - (r.command (.init k0 k1 k2)).l[15].toNat := by
  rw [command_init_narrow_l r k0 k1 k2 hv (by decide)]
  subst hv
  exact BitVec.toNat_sub_of_le (BitVec.le_def.mpr (Nat.le_pred_of_lt (narrowL _ 15).isLt))

theorem command_init_wide_l (hv : v = .w32) {i : Nat} (hi : i < 16) :
    (r.command (.init k0 k1 k2)).l[i].toNat = k0.toNat ^^^ (i * 0x01010101 % 2 ^ 32) := by
  subst hv
  simp [Regs.command, Regs.loadKey, keyL, wideL, keyWord, Variant.width]

end InitSchedule

/-- Settles O20: in `N16` a turn of the recurrence is a shift by one, so the words are those of the closed form. -/
theorem initLoadsKey : Obligations.InitLoadsKey := by
  intro s k0 k1 k2
  refine ⟨_, exec_eq_next _ s, fun hv => ?narrow, fun hv => ?wide, rfl, rfl, rfl, rfl, rfl, rfl, rfl, rfl⟩
  case narrow =>
    obtain ⟨hl0, hr2⟩ := command_init_narrow_words s.regs hv k0 k1 k2
    refine ⟨hl0, fun i hi => ?_, fun i hi => ?_, command_init_narrow_r1 s.regs k0 k1 k2 hv, hr2⟩
    · rw [command_init_narrow_l s.regs k0 k1 k2 hv (by omega), command_init_narrow_l s.regs k0 k1 k2 hv (by omega)]
      exact BitVec.toNat_ofNat _ 16
    · rw [command_init_narrow_l s.regs k0 k1 k2 hv hi, narrowL_toNat]
      exact congrArg (· / 2 ^ i) (BitVec.toNat_setWidth 16 k0)
  case wide =>
    obtain ⟨-, hr1, hr2⟩ := command_init_wide_words s.regs hv k0 k1 k2
    exact ⟨fun i => command_init_wide_l s.regs k0 k1 k2 hv, hr1, hr2⟩

/-! ### Short runs (R167 to R169, R172) -/

theorem runCommands_cons_of_not_isXorb {i : Instr} (hi : ¬ IsXorb i) (rest : List Instr) (s : State) :
    runCommands (i :: rest) s = runCommands rest (s.setRegs (s.regs.command i)) := by
  rw [runCommands, exec_eq_next]
  cases i with
  | xorb b => exact absurd ⟨b, rfl⟩ hi
  | nop | init | gen | msg => exact Option.map_id'

theorem runCommands_xorb_cons (b : Byte) (rest : List Instr) {s : State} (hkeyed : s.regs.keyed = true) :
    runCommands (.xorb b :: rest) s = (runCommands rest (s.setRegs (s.regs.xorByte b))).map
      fun out => ((s.regs.xorByte b).dout :: out.1, out.2) := by
  rw [runCommands, exec_xorb_of_keyed hkeyed]; rfl

theorem runCommands_msg_cons (rest : List Instr) (s : State) :
    runCommands (.msg :: rest) s = runCommands rest (s.setRegs s.regs.startMessage) :=
  runCommands_cons_of_not_isXorb (by simp [IsXorb]) rest s

theorem runCommands_init_cons (k0 k1 k2 : BitVec 32) (rest : List Instr) (s : State) :
    runCommands (.init k0 k1 k2 :: rest) s = runCommands rest (s.setRegs (s.regs.command (.init k0 k1 k2))) :=
  runCommands_cons_of_not_isXorb (by simp [IsXorb]) rest s

/-- Settles O24: the `XORB` after `MSG` is at lane 0, and `MSG` leaves the words its cycle reads. -/
theorem msgStartsMessage : Obligations.MsgStartsMessage := by
  refine ⟨fun s => ⟨_, exec_eq_next .msg s, rfl, rfl, rfl, rfl, rfl, rfl, rfl, rfl, rfl, rfl, rfl⟩,
    fun s b hkeyed => ⟨s.regs.startMessage.xorByte b, ?run, ?cycle⟩⟩
  case run =>
    have hkeyedMsg : (s.setRegs s.regs.startMessage).regs.keyed = true := hkeyed
    rw [runCommands_msg_cons, runCommands_xorb_cons b [] hkeyedMsg]; rfl
  case cycle =>
    have hfetch : s.regs.startMessage.fetchWord = s.regs.startMessage.genCycle := fetchWord_first _ rfl
    have hcycle : IsCycle s.regs s.regs.startMessage.genCycle := isCycle_genCycle s.regs.startMessage
    exact isCycle_xorByte _ hcycle hfetch b

/-- Settles O30: `GEN` keeps the lane, so the `XORB` fetches no word and uses the one `GEN` left in `KS`. -/
theorem genInsideMessageReplacesWord : Obligations.GenInsideMessageReplacesWord := by
  intro s b hkeyed hlane
  have hlaneGen : s.regs.genCycle.lane = s.regs.lane := genCycle_lane _
  have hfetch : s.regs.genCycle.fetchWord = s.regs.genCycle := fetchWord_later _ (hlaneGen ▸ hlane)
  have hdout : (s.regs.genCycle.xorByte b).dout = b ^^^ laneByte (s.regs.genCycle.xorByte b).ks s.regs.lane := by
    simp
  refine ⟨s.regs.genCycle.xorByte b, ?_, isCycle_xorByte _ (isCycle_genCycle s.regs) hfetch b, by simp⟩
  rw [runCommands_gen_cons hkeyed, runCommands_xorb_cons b [] (by simpa using hkeyed), ← hdout]; rfl

/-- Settles O49: `n` of the cycles come before the one that puts the `n`-th word out. -/
theorem gensGiveConsecutiveWords : Obligations.GensGiveConsecutiveWords := fun s n hkeyed =>
  ⟨_, runCommands_genCommands (n + 1) hkeyed, genCycles_succ_ks s.regs n, genCycles_lane _ _, genCycles_dout _ _,
    (genCycles_keyed _ _).trans hkeyed⟩

/-! ### The first word of `N16` (R172) -/

/-- `R1` is the complement of `L[15]`, so their sum is all ones. -/
theorem narrow_loadKey_keystreamWord (r : Regs .n16) (k0 k1 k2 : Word .n16) :
    (r.loadKey k0 k1 k2).keystreamWord = ~~~(k0 ^^^ k1) := by
  have hsum : narrowL k0 15 + (0xFFFF#16 - narrowL k0 15) = BitVec.allOnes 16 := add_sub_cancel _ _
  calc (r.loadKey k0 k1 k2).keystreamWord
    _ = (narrowL k0 15 + (0xFFFF#16 - narrowL k0 15)) ^^^ k1 ^^^ k0 := by
      simp [Regs.keystreamWord, Regs.loadKey, keyL, keyR1, keyR2, narrowL]
    _ = BitVec.allOnes 16 ^^^ (k0 ^^^ k1) := by rw [hsum, BitVec.xor_assoc, BitVec.xor_comm k1]
    _ = ~~~(k0 ^^^ k1) := BitVec.allOnes_xor

/-- The last word of the `N16` schedule is the top seed bit. -/
theorem narrowL_last (k : BitVec 16) : narrowL k 15 = if k.getLsbD 15 then 1#16 else 0#16 := by
  apply BitVec.eq_of_toNat_eq
  have hk : k.toNat < 2 ^ 16 := k.isLt
  simp only [narrowL_toNat, BitVec.getLsbD, Nat.testBit_eq_decide_div_mod_eq, decide_eq_true_eq,
    apply_ite BitVec.toNat, BitVec.toNat_ofNat]
  split <;> omega

theorem narrow_loadKey_genCycle_r2 (r : Regs .n16) (k0 k1 k2 : Word .n16) :
    (r.loadKey k0 k1 k2).genCycle.r2 = if k0.getLsbD 15 then 0x16BB#16 else 0x1616#16 := by
  have hsub : (r.loadKey k0 k1 k2).genCycle.r2 = subWord .n16 (0xFFFF#16 - narrowL k0 15) := rfl
  rw [hsub, narrowL_last]
  cases k0.getLsbD 15 <;> decide

section FirstWord

variable {v : Variant} (r : Regs v) (k0 k1 k2 : BitVec 32)

theorem command_init_narrow_keystreamWord (hv : v = .n16) :
    (r.command (.init k0 k1 k2)).keystreamWord.toNat = 0xFFFF - (k0.toNat ^^^ k1.toNat) % 2 ^ 16 := by
  subst hv
  rw [Regs.command, narrow_loadKey_keystreamWord, BitVec.toNat_not, BitVec.toNat_xor, keyWord, keyWord,
    BitVec.toNat_setWidth, BitVec.toNat_setWidth, Nat.xor_mod_two_pow]; rfl

theorem command_init_narrow_genCycle_r2 (hv : v = .n16) :
    (r.command (.init k0 k1 k2)).genCycle.r2.toNat = if k0.getLsbD 15 then 0x16BB else 0x1616 := by
  subst hv
  have htop : (keyWord .n16 k0).getLsbD 15 = k0.getLsbD 15 := by simp [keyWord]
  rw [Regs.command, narrow_loadKey_genCycle_r2, htop]
  split <;> rfl

end FirstWord

/-- Settles O48: `INIT` makes `R1` the complement of `L[15]`, which is the top seed bit. -/
theorem firstNarrowWord : Obligations.FirstNarrowWord := by
  intro s k0 k1 k2 hv
  refine ⟨(s.regs.command (.init k0 k1 k2)).genCycle, ?_, command_init_narrow_keystreamWord s.regs k0 k1 k2 hv,
    command_init_narrow_genCycle_r2 s.regs k0 k1 k2 hv⟩
  rw [runCommands_init_cons, runCommands_gen_cons rfl]; rfl

end Sys2Proof.Machine
end

section
/-! Messages (R53, R55, R170, R171): the registers and the bytes put out inside a message, and that decrypting undoes
encrypting. -/

namespace Sys2Proof.Machine

open Sys2Proof.SpecText

/-! ### Lanes and words of a message (R53, R55) -/

section Positions

variable (v : Variant) (k : Nat)

@[simp] theorem laneAt_val : (laneAt v k).val = k % v.bytes := rfl

theorem nextLane_laneAt : nextLane (laneAt v k) = laneAt v (k + 1) :=
  Fin.ext (Nat.mod_add_mod k v.bytes 1)

/-- The byte at position `k` is of word `k / B`, so a message that ends with it takes one word more than that. -/
theorem wordsFor_succ : wordsFor v (k + 1) = k / v.bytes + 1 := by
  cases v <;> simp only [wordsFor, Variant.bytes, Variant.width] <;> omega

variable {v k}

theorem wordsFor_of_lane_first (h : k % v.bytes = 0) : wordsFor v k = k / v.bytes := by
  cases v <;> simp only [wordsFor, Variant.bytes, Variant.width] at h ⊢ <;> omega

theorem wordsFor_of_lane_later (h : k % v.bytes ≠ 0) : wordsFor v k = k / v.bytes + 1 := by
  cases v <;> simp only [wordsFor, Variant.bytes, Variant.width] at h ⊢ <;> omega

end Positions

/-! ### The registers inside a message (R168, R170) -/

section InMessage

variable {v : Variant} (r : Regs v)

/-- The registers with the fields that the byte consumer writes itself; `xorByte_eq_withByte` ties it to the model. -/
def Regs.withByte (lane : Lane v) (dout : Byte) (doutWritten : Bool) : Regs v :=
  { r with lane := lane, dout := dout, doutWritten := doutWritten }

theorem xorByte_eq_withByte (b : Byte) :
    r.xorByte b = r.fetchWord.withByte (nextLane r.lane) (b ^^^ laneByte r.fetchWord.ks r.lane) true := rfl

theorem genCycle_withByte (j : Lane v) (d : Byte) (w : Bool) :
    (r.withByte j d w).genCycle = r.genCycle.withByte j d w := rfl

/-- The registers after `k` bytes of a message that starts from `r` (R170); `startMessage_eq_inMessage` and
`xorByte_inMessage` tie it to the model. -/
def Regs.inMessage (k : Nat) (dout : Byte) (doutWritten : Bool) : Regs v :=
  (r.genCycles (wordsFor v k)).withByte (laneAt v k) dout doutWritten

/-- The byte that position `k` of a message is combined with (R53, R170). -/
def Regs.keystreamByte (k : Nat) : Byte := laneByte (r.keystream (k / v.bytes)) (laneAt v k)

theorem startMessage_eq_inMessage : r.startMessage = r.inMessage 0 r.dout r.doutWritten := by
  have hwords : wordsFor v 0 = 0 := (wordsFor_of_lane_first (Nat.zero_mod _)).trans (Nat.zero_div _)
  have hlane : laneAt v 0 = firstLane v := Fin.ext (Nat.zero_mod _)
  rw [Regs.inMessage, hwords, hlane]; rfl

/-- Once its word is fetched, the byte at position `k` has `k / B + 1` words behind it, whatever its lane. -/
theorem fetchWord_inMessage (k : Nat) (d : Byte) (w : Bool) :
    (r.inMessage k d w).fetchWord = (r.genCycles (k / v.bytes + 1)).withByte (laneAt v k) d w := by
  by_cases h : k % v.bytes = 0
  · rw [fetchWord_first _ h, Regs.inMessage, wordsFor_of_lane_first h, genCycle_withByte, genCycle_genCycles]
  · rw [fetchWord_later _ h, Regs.inMessage, wordsFor_of_lane_later h]

theorem xorByte_inMessage (k : Nat) (d : Byte) (w : Bool) (b : Byte) :
    (r.inMessage k d w).xorByte b = r.inMessage (k + 1) (b ^^^ r.keystreamByte k) true := by
  have hks : (r.genCycles (k / v.bytes + 1)).ks = r.keystream (k / v.bytes) := genCycles_succ_ks r _
  calc (r.inMessage k d w).xorByte b
    _ = (r.genCycles (k / v.bytes + 1)).withByte (nextLane (laneAt v k))
          (b ^^^ laneByte (r.genCycles (k / v.bytes + 1)).ks (laneAt v k)) true := by
      rw [xorByte_eq_withByte, fetchWord_inMessage]; rfl
    _ = r.inMessage (k + 1) (b ^^^ r.keystreamByte k) true := by
      rw [hks, nextLane_laneAt, Regs.inMessage, wordsFor_succ, Regs.keystreamByte]

/-! ### The bytes a message puts out (R170) -/

/-- The buffer `bs`, from position `k` of a message on, combined with the keystream. -/
def Regs.combine (k : Nat) (bs : List Byte) : List Byte := bs.mapIdx fun i b => b ^^^ r.keystreamByte (k + i)

theorem combine_cons (k : Nat) (b : Byte) (bs : List Byte) :
    r.combine k (b :: bs) = (b ^^^ r.keystreamByte k) :: r.combine (k + 1) bs := by
  simp [Regs.combine, Nat.add_right_comm, Nat.add_assoc]

/-- Combining twice with one keystream gives the buffer back (R171). -/
theorem combine_combine (k : Nat) (bs : List Byte) : r.combine k (r.combine k bs) = bs := by
  induction bs generalizing k with
  | nil => rfl
  | cons b bs ih => rw [combine_cons, combine_cons, ih, BitVec.xor_assoc, BitVec.xor_self, BitVec.xor_zero]

end InMessage

theorem runCommands_xorbs (bs : List Byte) {s : State} {r : Regs s.variant} (hkeyed : r.keyed = true) {k : Nat}
    {d : Byte} {w : Bool} (hs : s.regs = r.inMessage k d w) : ∃ (d' : Byte) (w' : Bool),
      runCommands (bs.map .xorb) s = some (r.combine k bs, s.setRegs (r.inMessage (k + bs.length) d' w')) := by
  induction bs generalizing s k d w with
  | nil => exact ⟨d, w, by rw [List.length_nil, Nat.add_zero, ← hs]; rfl⟩
  | cons b bs ih =>
    have hkeyedMid : s.regs.keyed = true := by rw [hs]; exact (genCycles_keyed _ _).trans hkeyed
    have hbyte : s.regs.xorByte b = r.inMessage (k + 1) (b ^^^ r.keystreamByte k) true := by
      rw [hs, xorByte_inMessage]
    obtain ⟨d', w', hrest⟩ := ih (s := s.setRegs (s.regs.xorByte b)) hkeyed hbyte
    refine ⟨d', w', ?_⟩
    rw [List.map_cons, runCommands_xorb_cons b _ hkeyedMid, hrest, hbyte, combine_cons, List.length_cons,
      Nat.add_right_comm]
    rfl

/-- `ENCRYPT` and `DECRYPT` (R79) in a keyed core. -/
theorem runCommands_encryptCommands (bs : List Byte) {s : State} (hkeyed : s.regs.keyed = true) :
    ∃ (d : Byte) (w : Bool), runCommands (encryptCommands bs) s =
      some (s.regs.combine 0 bs, s.setRegs (s.regs.inMessage bs.length d w)) := by
  obtain ⟨d, w, hrun⟩ := runCommands_xorbs bs (s := s.setRegs s.regs.startMessage) (r := s.regs) hkeyed
    (startMessage_eq_inMessage s.regs)
  refine ⟨d, w, ?_⟩
  rw [encryptCommands, runCommands_msg_cons, hrun, Nat.zero_add]; rfl

/-- Settles O50: the run of a message keeps its registers in the form `Regs.inMessage` gives them. -/
theorem encryptXorsKeystreamLanes : Obligations.EncryptXorsKeystreamLanes := by
  intro s bs hkeyed
  obtain ⟨d, w, hrun⟩ := runCommands_encryptCommands bs hkeyed
  refine ⟨_, _, hrun, List.length_mapIdx, fun k b hb => ?_, rfl, rfl, rfl, rfl, rfl, genCycles_keyed _ _,
    genCycles_err _ _, genCycles_ecause _ _⟩
  rw [Regs.combine, List.getElem?_mapIdx, hb, Nat.zero_add]; rfl

/-! ### The keystream of a key (R171) -/

/-- The keystream is a function of `L`, `R1` and `R2`. -/
theorem keystream_congr {v : Variant} {r q : Regs v} (hl : r.l = q.l) (hr1 : r.r1 = q.r1) (hr2 : r.r2 = q.r2)
    (j : Nat) : r.keystream j = q.keystream j := by
  induction j generalizing r q with
  | zero => simp [Regs.keystream, Regs.genCycles, Regs.keystreamWord, hl, hr1, hr2]
  | succ j ih => exact ih (r := r.genCycle) (q := q.genCycle) (by simp [hl]) (by simp [hl, hr1, hr2]) (by simp [hr1])

/-- What the core did before `INIT` has no part in the bytes. -/
theorem command_init_combine {v v' : Variant} (hv : v = v') (r : Regs v) (q : Regs v') (k0 k1 k2 : BitVec 32)
    (bs : List Byte) :
    (r.command (.init k0 k1 k2)).combine 0 bs = (q.command (.init k0 k1 k2)).combine 0 bs := by
  subst hv
  have hstream (j : Nat) : (r.command (.init k0 k1 k2)).keystream j = (q.command (.init k0 k1 k2)).keystream j :=
    keystream_congr (r := r.command _) (q := q.command _) rfl rfl rfl j
  simp only [Regs.combine, Regs.keystreamByte, hstream]

theorem runCommands_init_encryptCommands (s : State) (k0 k1 k2 : BitVec 32) (p : List Byte) :
    ∃ t, runCommands (.init k0 k1 k2 :: encryptCommands p) s =
      some ((s.regs.command (.init k0 k1 k2)).combine 0 p, t) := by
  have hkeyed : (s.setRegs (s.regs.command (.init k0 k1 k2))).regs.keyed = true := rfl
  obtain ⟨d, w, hrun⟩ := runCommands_encryptCommands p hkeyed
  exact ⟨_, (runCommands_init_cons k0 k1 k2 _ s).trans hrun⟩

/-- Settles O51: both cores combine with the keystream of the key, and doing so twice cancels. -/
theorem decryptRecoversBuffer : Obligations.DecryptRecoversBuffer := by
  intro s s' k0 k1 k2 p hv
  have hsame (bs : List Byte) : (s'.regs.command (.init k0 k1 k2)).combine 0 bs =
      (s.regs.command (.init k0 k1 k2)).combine 0 bs := command_init_combine hv.symm _ _ k0 k1 k2 bs
  obtain ⟨t, hencrypt⟩ := runCommands_init_encryptCommands s k0 k1 k2 p
  obtain ⟨t', hdecrypt⟩ :=
    runCommands_init_encryptCommands s' k0 k1 k2 ((s.regs.command (.init k0 k1 k2)).combine 0 p)
  obtain ⟨t'', hagain⟩ := runCommands_init_encryptCommands s' k0 k1 k2 p
  rw [hsame, combine_combine] at hdecrypt
  rw [hsame] at hagain
  exact ⟨_, t, t', t'', hencrypt, hdecrypt, hagain⟩

end Sys2Proof.Machine
end

section
/-! Errors (R200 to R212): every command completes, the two errors and their causes, that a recorded error has no
influence, and the idle core. -/

namespace Sys2Proof.Machine

open Sys2Proof.SpecText

/-- Settles O25: the next state holds the registers the command leaves. -/
theorem everyCommandCompletes : Obligations.EveryCommandCompletes := fun i s => ⟨_, exec_eq_next i s⟩

/-! ### The two errors (R201) -/

section Decoded

variable {p : Ports}

theorem exists_decode_ok (v : Variant) (hop : ¬ IsReserved p.op) : ∃ i, decode v p = .ok i := by
  obtain h | h | h | h | h | h := op_cases p.op
  · exact ⟨_, decode_of_op_nop v h⟩
  · exact ⟨_, decode_of_op_init v h⟩
  · exact ⟨_, decode_of_op_gen v h⟩
  · exact ⟨_, decode_of_op_xorb v h⟩
  · exact ⟨_, decode_of_op_msg v h⟩
  · exact absurd h hop

/-- The opcodes of the two commands that need a key. -/
theorem gen_or_isXorb_iff_op {v : Variant} {i : Instr} (h : decode v p = .ok i) :
    i = .gen ∨ IsXorb i ↔ p.op = 0b010#3 ∨ p.op = 0b011#3 := by
  obtain ⟨hop, rfl⟩ | ⟨hop, rfl⟩ | ⟨hop, rfl⟩ | ⟨hop, rfl⟩ | ⟨hop, rfl⟩ := decode_ok_cases h <;>
    simp [hop, IsXorb]

theorem not_isReserved_of_op_gen_or_xorb {op : BitVec 3} (h : op = 0b010#3 ∨ op = 0b011#3) : ¬ IsReserved op := by
  obtain rfl | rfl := h <;> simp [IsReserved]

theorem runPorts_of_decode_ok {i : Instr} {s : State} (h : decode s.variant p = .ok i) :
    runPorts p s = exec i s := by
  rw [runPorts_eq_next, accept_of_decode_ok s.regs h, exec_eq_next]

end Decoded

/-- Settles O31: a reserved opcode and an unkeyed `GEN` or `XORB` take the error action with their cause, and no other
command writes `ERR` or `ECAUSE`. -/
theorem exactlyTwoErrors : Obligations.ExactlyTwoErrors := by
  intro s p herr hcause
  by_cases hreserved : IsReserved p.op
  · have hkey : ¬ (p.op = 0b010#3 ∨ p.op = 0b011#3) := fun h => not_isReserved_of_op_gen_or_xorb h hreserved
    exact ⟨_, runPorts_of_isReserved hreserved s, by simp [errorAction, herr, hreserved, hkey]⟩
  · obtain ⟨i, hdecode⟩ := exists_decode_ok s.variant hreserved
    rw [runPorts_of_decode_ok hdecode, ← gen_or_isXorb_iff_op hdecode]
    by_cases hunkeyed : (i = .gen ∨ IsXorb i) ∧ s.regs.keyed = false
    · exact ⟨_, exec_of_unkeyed hunkeyed.1 hunkeyed.2, by simp [errorAction, herr, hreserved, hunkeyed]⟩
    · obtain ⟨r, hw, hexec⟩ := exec_completes i s
      obtain ⟨herr', hcause'⟩ := hw.error_kept (mt And.symm hunkeyed)
      exact ⟨r, hexec, by simp [herr', hcause', herr, hcause, hreserved, hunkeyed]⟩

/-! ### A recorded error has no influence (R202) -/

section WithError

variable {v : Variant} (r : Regs v) (e : Bool) (c : ErrCause)

/-- The registers with these values in `ERR` and `ECAUSE`. -/
def Regs.withError : Regs v := { r with err := e, ecause := c }

theorem raise_withError (k : ErrCause) :
    (r.withError e c).raise k = (r.raise k).withError true (if e then c else k) := rfl

theorem fetchWord_withError : (r.withError e c).fetchWord = r.fetchWord.withError e c := by
  by_cases hlane : r.lane.val = 0
  · rw [fetchWord_first r hlane, fetchWord_first (r.withError e c) hlane]; rfl
  · rw [fetchWord_later r hlane, fetchWord_later (r.withError e c) hlane]

theorem xorByte_withError (b : Byte) : (r.withError e c).xorByte b = (r.xorByte b).withError e c := by
  rw [Regs.xorByte, fetchWord_withError]; rfl

/-- `ERR` and `ECAUSE` before a command reach nothing but `ERR` and `ECAUSE` after it. -/
theorem command_withError (i : Instr) :
    ∃ e' c', (r.withError e c).command i = (r.command i).withError e' c' := by
  have hkeyed : (r.withError e c).keyed = r.keyed := rfl
  cases i with
  | nop | init | msg => exact ⟨e, c, rfl⟩
  | gen =>
    simp only [Regs.command, hkeyed]
    split
    · exact ⟨e, c, rfl⟩
    · exact ⟨_, _, raise_withError r e c .notKeyed⟩
  | xorb b =>
    simp only [Regs.command, hkeyed]
    split
    · exact ⟨e, c, xorByte_withError r e c b⟩
    · exact ⟨_, _, raise_withError r e c .notKeyed⟩

end WithError

/-- Settles O33: the two runs leave registers that differ in `ERR` and `ECAUSE` at most. -/
theorem recordedErrorHasNoInfluence : Obligations.RecordedErrorHasNoInfluence := by
  intro i s e c
  obtain ⟨e', c', hcommand⟩ := command_withError s.regs e c i
  refine ⟨_, e', c', exec_eq_next i s, ?_⟩
  calc exec i (s.setRegs (s.regs.withError e c))
    _ = .next (s.setRegs ((s.regs.withError e c).command i)) := exec_eq_next i _
    _ = .next (s.setRegs ((s.regs.command i).withError e' c')) := by rw [hcommand]

/-! ### The idle core (R212) -/

theorem readyEdge_of_no_offer {s : State} (hoffer : s.offer = none) : s.readyEdge = .next (s.pastEdge .ready none) := by
  simp [State.readyEdge, hoffer]

/-- Settles O43: with nothing offered a ready core answers the state past the edge, and no offer waits before it or
after it. -/
theorem idleCoreHoldsState : Obligations.IdleCoreHoldsState := by
  intro s hphase hwaiting hrst hvalid
  have hoffer : s.offer = none := if_neg (by simp [hvalid])
  rw [step_of_ready (hostBreaksDuty_eq_false (.inl hwaiting)) hrst hphase, readyEdge_of_no_offer hoffer,
    pastEdge_same_phase hphase, ← hwaiting]

end Sys2Proof.Machine
end

section
/-! Reset and hazards (R230 to R234): a re-keyed core has forgotten its registers, reset and recovery from it, and the
host's duty. -/

namespace Sys2Proof.Machine

open Sys2Proof.SpecText

/-! ### Re-keying (R166, R233) -/

/-- What the key load does not keep it takes from the key alone. -/
theorem loadKey_of_other_regs {v : Variant} (r q : Regs v) (k0 k1 k2 : Word v) :
    q.loadKey k0 k1 k2 = { r.loadKey k0 k1 k2 with
      ks := q.ks, dout := q.dout, err := q.err, ecause := q.ecause
      ksWritten := q.ksWritten, doutWritten := q.doutWritten } := rfl

/-- Settles O29: both runs load the same key, over the registers `s.regs` and `q`. -/
theorem rekeyingForgetsOldKey : Obligations.RekeyingForgetsOldKey := fun s q k0 k1 k2 =>
  ⟨_, _, exec_eq_next (.init k0 k1 k2) s, exec_eq_next (.init k0 k1 k2) (s.setRegs q),
    loadKey_of_other_regs s.regs q _ _ _⟩

/-! ### Edges at which nothing is accepted (R71, R230) -/

section Edges

variable {s : State}

theorem cmdReady_of_phase_ne_ready (hphase : s.phase ≠ .ready) : s.cmdReady = false :=
  Bool.eq_false_iff.mpr fun h => hphase ((cmdReady_eq_true_iff s).mp h).1

theorem cmdReady_of_rst (hrst : s.edgeNow.rst = true) : s.cmdReady = false := by
  simp [State.cmdReady, hrst]

theorem accepts_of_not_cmdReady (h : s.cmdReady = false) : s.accepts = [] :=
  if_neg (Bool.eq_false_iff.mp h)

theorem step_of_rst (hduty : s.hostBreaksDuty = false) (hrst : s.edgeNow.rst = true) :
    step s = .next s.resetEdge := by
  simp [step, hduty, hrst]

theorem step_of_resetting (hduty : s.hostBreaksDuty = false) (hrst : s.edgeNow.rst = false)
    (hphase : s.phase = .resetting) : step s = .next s.recoverEdge := by
  simp [step, hduty, hrst, hphase]

theorem step_of_duty_broken (hduty : s.hostBreaksDuty = true) : step s = .refused .hostDuty :=
  if_pos hduty

end Edges

theorem resetEdge_isReset (s : State) : s.resetEdge.regs.IsReset := afterReset_isReset ..

theorem resetEdge_inProgress (s : State) : s.resetEdge.phase.inProgress = [] :=
  inProgress_ready_or_resetting s.edgeNow.done

/-- Recovery from reset is over exactly when the edge is done. -/
theorem ready_or_resetting_iff (done : Bool) :
    ((if done then Phase.ready else .resetting) = .ready ↔ done = true) ∧
      ((if done then Phase.ready else .resetting) = .resetting ↔ done = false) := by
  cases done <;> simp

/-- Settles O37: `rst` lowers `cmd_ready`, and the edge leaves the registers of R34 whatever was in progress. -/
theorem resetEdgeAbandonsCommand : Obligations.ResetEdgeAbandonsCommand := by
  intro s hduty hrst
  have hready : s.cmdReady = false := cmdReady_of_rst hrst
  exact ⟨hready, accepts_of_not_cmdReady hready, s.resetEdge, step_of_rst hduty hrst, resetEdge_variant s,
    resetEdge_isReset s, resetEdge_inProgress s, resetEdge_ksWritten s, resetEdge_doutWritten s⟩

/-- Settles O53: the edge moves the port along and touches nothing else; its `done` bit says where the port then is. -/
theorem recoveryEdgeKeepsRegisters : Obligations.RecoveryEdgeKeepsRegisters := by
  intro s hphase hduty hrst
  have hready : s.cmdReady = false := cmdReady_of_phase_ne_ready (by simp [hphase])
  obtain ⟨hdone, hnotDone⟩ := ready_or_resetting_iff s.edgeNow.done
  exact ⟨hready, accepts_of_not_cmdReady hready, _, hdone, hnotDone, step_of_resetting hduty hrst hphase⟩

/-! ### The host's duty (R234) -/

theorem offer_eq_some_iff {s : State} {p : Ports} :
    s.offer = some p ↔ s.edgeNow.valid = true ∧ s.edgeNow.ports.wires s.variant = p := by
  simp [State.offer]

theorem hostBreaksDuty_iff (s : State) :
    s.hostBreaksDuty = true ↔
      ∃ p, s.waiting = some p ∧ ¬ (s.edgeNow.valid = true ∧ s.edgeNow.ports.wires s.variant = p) := by
  unfold State.hostBreaksDuty
  cases s.waiting with
  | none => simp
  | some p => simpa only [Option.some.injEq, exists_eq_left', decide_eq_true_eq] using not_congr offer_eq_some_iff

/-- While the host keeps its duty every edge has a next state, as every command does. -/
theorem exists_step_of_duty_kept {s : State} (hduty : s.hostBreaksDuty = false) : ∃ t, step s = .next t := by
  cases hrst : s.edgeNow.rst with
  | true => exact ⟨_, step_of_rst hduty hrst⟩
  | false =>
    cases hphase : s.phase with
    | resetting => exact ⟨_, step_of_resetting hduty hrst hphase⟩
    | busy p =>
      rw [step_of_busy hduty hrst hphase]
      cases hdone : s.edgeNow.done with
      | true => exact ⟨_, (busyEdge_of_done p hdone).trans (runPorts_eq_next ..)⟩
      | false => exact ⟨_, busyEdge_of_not_done p hdone⟩
    | ready =>
      rw [step_of_ready hduty hrst hphase]
      cases hoffer : s.offer with
      | none => exact ⟨_, readyEdge_of_no_offer hoffer⟩
      | some p =>
        cases hdone : s.edgeNow.done with
        | true => exact ⟨_, (readyEdge_of_done hoffer hdone).trans (runPorts_eq_next ..)⟩
        | false => exact ⟨_, readyEdge_of_not_done hoffer hdone⟩

theorem step_eq_refused_iff (s : State) (x : Refusal) :
    step s = .refused x ↔ x = .hostDuty ∧ s.hostBreaksDuty = true := by
  cases hduty : s.hostBreaksDuty with
  | true => simp [step_of_duty_broken hduty, eq_comm]
  | false =>
    obtain ⟨t, ht⟩ := exists_step_of_duty_kept hduty
    simp [ht]

/-- Settles O45: a broken duty is refused by name, and with the duty kept there is a next state; there are no faults to
answer. -/
theorem onlyHostDutyStopsStep : Obligations.OnlyHostDutyStopsStep := fun s =>
  ⟨nofun, fun x => by rw [step_eq_refused_iff, hostBreaksDuty_iff]⟩

end Sys2Proof.Machine
end
